-- ==== Sys2Proof/Word.lean ====
section
/-! DEFINITION. The word types of the TW416 and their plainest arithmetic. -/

namespace Sys2Proof

/-- One byte of a request frame, a response image or a notice record (chapter 11). -/
abbrev Byte := BitVec 8

/-- A 16-bit quantity: an angle in counts, a sample stamp, a booking serial, a tag, a counter. -/
abbrev Word := BitVec 16

end Sys2Proof
end

