-- ==== Sys2Proof/Config.lean ====
section
/-! DEFINITION. The fixed sizes the manual gives the TW416. The manual leaves no value of this device
to the implementation or to chance, so there is no free value here. -/

namespace Sys2Proof.Config

/-- The trigger table has 64 entries, numbered 0 to 63 (R69). -/
def tableSize : Nat := 64

/-- A notice queue holds at most 16 notices (R116). -/
def queueDepth : Nat := 16

/-- A wait list holds at most three ports (R162). -/
def waitDepth : Nat := 3

/-- The longest request frame, BOOK, is 16 bytes (section 11.2). -/
def longestFrame : Nat := 16

/-- The clock count of a sample frame in reception stops at 33 (R5). -/
def clockCountStop : Nat := 33

/-- The clock count of a sample frame that is not rejected for its length (R6). -/
def frameClocks : Nat := 32

/-- The start time: reset ends 50 µs after RESET_N is found high again (R199). -/
def startTime : Nat := 50

/-- The stale timeout, in µs, that the stale timer is restarted with when reset ends (R11). -/
def resetStaleTimeout : Nat := 500

/-- The magnitude of a displacement, in 1/256 count, from which a step is ambiguous (R38). -/
def ambiguityLimit : Nat := 8388352

end Sys2Proof.Config
end

