-- ==== Sys2Proof/Syntax.lean ====
section
/-! DEFINITION. The commands of the TW416: one constructor of Instr for each row of spec/opcode_table.json.

A row is one happening (R2): an edge of a pin, the expiry of a timer, or a block's taking of the message or
request that stands at the head of one of the paths between the blocks (R3). An edge carries the levels that were
clocked before it. A happening that takes a message carries no copy of it: the message, with the arguments of a
request, stands in the state, on the path it travels, and the command names the path where the row alone
leaves it open. -/

namespace Sys2Proof.Machine

/-- The host ports P0 to P3. -/
inductive Port where
  | p0 | p1 | p2 | p3
deriving DecidableEq, Repr

/-- The trigger lines TRG0 to TRG3. -/
inductive Line where
  | trg0 | trg1 | trg2 | trg3
deriving DecidableEq, Repr

/-- The blocks that send messages to one another, by the short names of the block overview (chapter 0). -/
inductive Block where
  | si | tl | tt | nu | lu | su | cu
deriving DecidableEq, Repr

end Sys2Proof.Machine

namespace Sys2Proof

open Machine

/-- The commands, in the order of the opcode table. -/
inductive Instr where
  /-- RESET (R199). RESET_N is found low, and every block returns to its reset values and ignores its inputs. -/
  | reset
  /-- RESET_END (R199). Reset ends 50 µs after RESET_N is found high: the stale timer starts with 500 µs and any frame
      or transaction already in progress is ignored. -/
  | resetEnd
  /-- SAMPLE_FRAME (R5). At the falling edge of SFRM_S, SI takes a sample frame with its clock count and checks it,
      classifies it and, if accepted, processes it. `levels` are the levels of SDAT_S at the rising edges of SCLK_S
      since SFRM_S rose, the first one first. -/
  | sampleFrame (levels : List Bool)
  /-- STALE_TIMER_EXPIRY (R12). The stale timer expires: STALE's run counter increments; if STALE was inactive it
      becomes active, the baseline becomes none, TL gets a stale message and NU gets a health report; the timer
      restarts. -/
  | staleTimerExpiry
  /-- OPEN_P_AT_SI (R26). SI records the port as open and gives it an empty sticky set. -/
  | openAtSi
  /-- CLOSE_P_AT_SI (R26). SI empties the port's sticky set, records the port as closed and sends SU a done report. -/
  | closeAtSi
  /-- READ_HEALTH (R27). SI answers with the active causes, the run counters, the caller's sticky set and the stamp. -/
  | readHealth
  /-- ACK_HEALTH (R28). SI removes the inactive causes from the caller's sticky set and returns the set that remains. -/
  | ackHealth
  /-- READ_COUNTERS (R30). SI places its three counters into the request and passes it on to TL along the SI → TL
      path. -/
  | readCounters
  /-- COUNTERS_CLEAR (R31). SI clears REJECTED, DUPLICATE and GAP and passes the request on to TL. -/
  | countersClear
  /-- COUNTERS_AT_LOOP (R55). TL takes a passed-on READ_COUNTERS, adds AMBIGUOUS and OVERSPEED and responds, or takes
      COUNTERS_CLEAR, clears them and responds. -/
  | countersAtLoop
  /-- FRAME_MESSAGE (R44). TL takes a frame message: it records health and stamp, and according to the loop state
      makes a step, a transition or nothing. -/
  | frameMessage
  /-- STALE_MESSAGE (R45). TL takes a stale message: the recorded health becomes not usable, and ACQUIRE, TRACK or
      COAST falls to LOST. -/
  | staleMessage
  /-- START (R50). In HALTED, TL zeroes the velocity and moves to ACQUIRE or LOST by the recorded health; in other
      states it is refused with WRONG_STATE. -/
  | start
  /-- HALT (R51). TL moves the loop to HALTED with cause HALT, or changes nothing if the loop is already HALTED, and
      answers OK. -/
  | halt
  /-- RELOCK (R52). From TRACK or COAST, TL moves the loop to ACQUIRE with cause RELOCK; in other states it is refused
      with WRONG_STATE. -/
  | relock
  /-- READ_ANGLE (R53). TL returns the angle, velocity, state, effective step, recorded health and recorded stamp. -/
  | readAngle
  /-- READ_LOOP (R54). TL returns the state, the stored and effective steps, the window counters, the lock run, the
      coast count and the clamp flag. -/
  | readLoop
  /-- STEP_REPORT (R95). TT takes a step report whole: it evaluates ARMED entries, fires the admitted ones in path
      order, then re-arms RECOVERING entries. -/
  | stepReport
  /-- BOOK (R78). After checks of arguments, line, quota and free entry, TT books the lowest FREE entry with the next
      serial. -/
  | book
  /-- AMEND (R81). TT replaces the named fields of an owned booking that is not SPENT. -/
  | amend
  /-- CANCEL (R82). TT frees an owned booking and sends a drop to NU and/or a reference removed to LU. -/
  | cancel
  /-- SUSPEND (R83). TT moves an ARMED or RECOVERING entry to SUSPENDED and records its resume state. -/
  | suspend
  /-- RESUME (R84). TT returns a SUSPENDED entry to its resume state. -/
  | resume
  /-- READ_ENTRY (R85). TT returns the entry as it stands, or FREE alone. -/
  | readEntry
  /-- LIST_OWN (R86). TT returns the 64-place map of the caller's entries that are not FREE. -/
  | listOwn
  /-- PURGE_AT_TT (R92). TT frees every entry of the port, then sends references purged to LU, a purge mark to NU and
      purge done to SU. -/
  | purgeAtTt
  /-- RELEASE_MESSAGE (R90). TT frees the entry if it is SPENT with the carried serial, sending a reference removed if
      it names a line, and ignores the message otherwise. -/
  | releaseMessage
  /-- LINE_OWNER_MESSAGE (R87). TT sets its copy of line ownership for the line to the carried owner. -/
  | lineOwnerMessage
  /-- HEALTH_REPORT (R119). NU updates its health and stamp copies and gives a HEALTH notice to each open port
      subscribed to HEALTH. -/
  | healthReport
  /-- LOOP_REPORT (R120). NU updates its loop state, effective step and stamp copies and gives LOOP notices to
      subscribed ports. -/
  | loopReport
  /-- OVERSPEED_REPORT (R121). NU updates its last stamp copy and gives OVERSPEED notices to subscribed ports. -/
  | overspeedReport
  /-- FIRE_REPORT (R117). NU posts a FIRED notice to the owner, keeps it as an owed item or merges it into one, or
      discards it if the port is closed. -/
  | fireReport
  /-- DROP_MESSAGE (R127). NU removes the owed item that matches the index and serial, if one stands. -/
  | dropMessage
  /-- PURGE_MARK (R129). NU records the purge mark, or, if the close has been taken, sends SU the done report. -/
  | purgeMark
  /-- LEASE_REPORT (R122). NU updates its lease holder copy and, if the grant flag is set, gives LEASE_GRANTED to the
      new holder. -/
  | leaseReport
  /-- ACTIVATION_REPORT (R123). NU updates its active bank copy and gives ACTIVATED notices, stamped with its last
      stamp copy, to subscribed ports. -/
  | activationReport
  /-- OPEN_P_AT_NU (R128). NU empties the port's record, resets its notice sequence, records its subscriptions and
      marks it open. -/
  | openAtNu
  /-- CLOSE_P_AT_NU (R129). NU empties the port's queue and owed list, marks it closed, releases ATN, and sends done
      if the purge mark has been taken. -/
  | closeAtNu
  /-- NOTICE_POP (R124). NU removes and returns the head notice, then posts a SUMMARY or the lowest owed item if
      anything is owed, or answers QUEUE_EMPTY. -/
  | noticePop
  /-- LINE_CLAIM (R135). LU gives an UNOWNED line to the caller, or updates the width and polarity for its owner, or
      refuses the claim. -/
  | lineClaim
  /-- LINE_RELEASE (R138). LU releases an owned line whose reference count is zero, leaving the pin undriven and
      stopping the timer. -/
  | lineRelease
  /-- LINE_PULSE (R140). LU starts or extends a pulse on the caller's own line. -/
  | linePulse
  /-- LINE_STATUS (R144). LU returns the line's owner, polarity, width, state and merged count. -/
  | lineStatus
  /-- PULSE_REQUEST (R139). LU starts or extends a pulse if the named port owns the line, and discards the request
      otherwise. -/
  | pulseRequest
  /-- REFERENCE_ADDED (R137). LU increments the port's reference count for the line. -/
  | referenceAdded
  /-- REFERENCE_REMOVED (R137). LU decrements the port's reference count for the line, not below zero. -/
  | referenceRemoved
  /-- REFERENCES_PURGED (R142). LU zeroes the port's counts and either marks the message as taken or, after a release-
      all, sends SU the done report. -/
  | referencesPurged
  /-- RELEASE_ALL (R142). LU releases every line the port owns, sends owner messages, and sends done if references
      purged has been taken. -/
  | releaseAll
  /-- PULSE_END (R141). A line's pulse timer reaches its pulse end, and the line returns to IDLE at the inactive
      level. -/
  | pulseEnd (line : Line)
  /-- FORWARD_REQUEST (R148). SU judges a request by the session gate, restarts the session timer, and forwards an
      admitted request to its owner block or refuses it. `p` names the path HPp → SU the request stands on. -/
  | forwardRequest (p : Port)
  /-- JOIN (R151). SU opens a session on a CLOSED port, or in OPEN holds the JOIN and begins a rejoin teardown. -/
  | join (p : Port)
  /-- LEAVE (R153). SU begins teardown with cause LEFT and answers OK. -/
  | leave (p : Port)
  /-- PING (R154). SU restarts the timer and answers with the session state and timeout. -/
  | ping (p : Port)
  /-- NOP (R154). SU answers OK with no payload and restarts the timer if the session is OPEN. -/
  | nop (p : Port)
  /-- HOST_STATUS (R155). SU answers with the port's session state, epoch and last close cause. -/
  | hostStatus (p : Port)
  /-- SESSION_TIMER_EXPIRY (R150). A port's session timer expires while the session is OPEN, and teardown begins with
      cause EXPIRED. -/
  | sessionTimerExpiry (p : Port)
  /-- DONE_REPORT (R157). SU removes the reporting block from the awaited set, sends release-all after TT's report,
      and closes or reopens the session when the set is empty. `block` is the reporting block, which names the path to
      SU. -/
  | doneReport (block : Block)
  /-- LEASE_TAKE (R163). CU grants a free lease, queues the caller on WAIT, or answers LEASE_HELD or LEASE_QUEUED. -/
  | leaseTake
  /-- LEASE_DROP (R164). CU hands the holder's lease to the head of the wait list, or frees it, and sends a lease
      report. -/
  | leaseDrop
  /-- LEASE_CANCEL (R165). CU removes the caller from the wait list. -/
  | leaseCancel
  /-- PARAM_WRITE (R171). CU stores a range-checked value into a field of the standby bank. -/
  | paramWrite
  /-- PARAM_COPY (R172). CU copies the active bank into the standby bank. -/
  | paramCopy
  /-- PARAM_READ (R173). CU returns the bank number, the field value and the activation-pending flag. -/
  | paramRead
  /-- ACTIVATE (R174). CU cross-checks the standby bank, then swaps at once if the loop is idle or sets activation
      pending. -/
  | activate
  /-- LEASE_GATED_FORWARD (R169). CU checks the lease for START, HALT, RELOCK or COUNTERS_CLEAR and forwards the
      request to TL or SI, or refuses it with NO_LEASE. -/
  | leaseGatedForward
  /-- PURGE_AT_CU (R167). CU hands on the port's lease, removes it from the wait list, and sends SU a done report. -/
  | purgeAtCu
  /-- STATE_MESSAGE (R176). CU sets its loop-idle flag from the state named in the message. -/
  | stateMessage
  /-- BOUNDARY_MESSAGE (R177). CU swaps the banks if an activation is pending, and otherwise changes nothing. -/
  | boundaryMessage
  /-- CSN_N_FALLS (R182). A transaction opens: HP fixes its kind from the slot state and builds the outgoing image of
      response, EMPTY or BUSY. -/
  | csFalls (p : Port)
  /-- CSN_N_RISES (R186). A transaction closes: HP takes delivery and frames the received request, handing it to SU,
      answering an error, or discarding it. `levels` are the levels of SDIn at the rising edges of SCKn since CSn_N
      fell, the first one first. -/
  | csRises (p : Port) (levels : List Bool)
  /-- RESPONSE_WRITE (R190). An owner block's response becomes the held response, and the slot becomes READY. `block`
      is the writing block, which with `p` names the path to HPp. -/
  | responseWrite (block : Block) (p : Port)
  /-- EPOCH_MESSAGE (R191). HP sets its held epoch to the carried value. -/
  | epochMessage (p : Port)
  /-- QUEUE_LENGTH_MESSAGE (R191). HP sets its held queue length to the carried value. -/
  | queueLengthMessage (p : Port)
  /-- SFRM_S_RISES (R5). A rising edge of SFRM_S opens a frame, and SI clears its receive shifter and its clock count. -/
  | sfrmRises
  /-- RESET_N_FOUND_HIGH (R199). The device finds RESET_N high again on REFCLK, and the 50 µs start time begins to run
      toward the end of reset. -/
  | resetFoundHigh
deriving DecidableEq, Repr

end Sys2Proof
end

