-- ==== Sys2Proof/WellFormed.lean ====
section
/-! DEFINITION. Which commands are well formed: those that name a path the device has. -/

namespace Sys2Proof

/-- The blocks that send SU a done report during teardown (R156). TL and SU send none. -/
def Machine.Block.reportsDone : Machine.Block → Bool
  | .si | .tt | .nu | .lu | .cu => true
  | .tl | .su => false

/-- A command is well formed when the path it names exists. Only DONE_REPORT can name one that does not. -/
def Instr.wellFormed : Instr → Bool
  | .doneReport b => b.reportsDone
  | _ => true

end Sys2Proof
end

