-- ==== Sys2Proof/Decode.lean ====
section
/-! DEFINITION. Decoding a command from the bits of the opcode table. The table gives no row any bits ("fields": []): the
commands are edges, expiries and messages taken, and none of them is spelled by a word. The device's own wire formats
are in Machine/Formats.lean and Machine/HostPort.lean. -/

namespace Sys2Proof

/-- The command that the low `nbits` bits of `w` spell by the opcode table: none, for no row of the table gives bits. -/
def decodeTableWord (_nbits _w : Nat) : Option Instr := none

end Sys2Proof
end

