-- ==== Sys2Proof/Machine/Types.lean ====
section
/-! DEFINITION. The values the blocks hold and the messages they send: the enumerations of section 11.6, the
records of chapters 1 to 10, and one message type for each path that carries more than one kind of message. -/

namespace Sys2Proof.Machine

/-! ## One item for each port, one item for each line -/

/-- One item for each host port. -/
structure PerPort (α : Type) where
  p0 : α
  p1 : α
  p2 : α
  p3 : α
deriving DecidableEq, Repr

/-- One item for each trigger line. -/
structure PerLine (α : Type) where
  trg0 : α
  trg1 : α
  trg2 : α
  trg3 : α
deriving DecidableEq, Repr

/-! ## Sample intake (chapter 1) -/

/-- A set of health causes (section 1.5). -/
structure CauseSet where
  frontEnd : Bool
  lowAmplitude : Bool
  saturated : Bool
  stale : Bool
deriving DecidableEq, Repr

/-- The run counter of each health cause, 0 to 15 (section 1.5). -/
structure RunCounters where
  frontEnd : BitVec 4
  lowAmplitude : BitVec 4
  saturated : BitVec 4
  stale : BitVec 4
deriving DecidableEq, Repr

/-- The reception of a sample frame (R5): whether a frame is open, the receive shifter and the clock count. -/
structure Reception where
  inFrame : Bool
  shifter : BitVec 32
  clocks : Nat
deriving DecidableEq, Repr

/-- The fields of a sample frame that passed its checks (section 11.1). The samples are as received. -/
structure SampleFrame where
  seq : BitVec 4
  sine : Int
  cosine : Int
  feClip : Bool
  feFault : Bool
deriving DecidableEq, Repr

/-! ## Tracking loop (chapters 2 and 3) -/

/-- The five loop states (section 2.1). -/
inductive LoopState where
  | halted | acquire | track | coast | lost
deriving DecidableEq, Repr

/-- The causes of a loop transition (section 2.1). -/
inductive LoopCause where
  | start | halt | relock | locked | healthLost | recovered | coastLimit | ambiguousStep
deriving DecidableEq, Repr

/-- A step S0 to S7 of the gain ladder, by its number. S0 is the highest gain. -/
abbrev GainStep := Fin 8

/-- The sign of a displacement (R39) or an error sign (R36): −1, 0 or +1. -/
inductive Sign where
  | neg | zero | pos
deriving DecidableEq, Repr

/-- The state a reported step was made in (R39). -/
inductive StepState where
  | track | coast
deriving DecidableEq, Repr

/-! ## Trigger table (chapters 4 and 5) -/

/-- The index of a trigger entry. -/
abbrev EntryIndex := Fin 64

/-- The direction of passage a booking waits for (R69). -/
inductive Direction where
  | fwd | rev | both
deriving DecidableEq, Repr

/-- The direction in which an angle was passed (R104). -/
inductive Passage where
  | fwd | rev
deriving DecidableEq, Repr

/-- What a firing does; a pulsing action names its line (R69). -/
inductive Action where
  | notice
  | pulse (line : Line)
  | noticeAndPulse (line : Line)
deriving DecidableEq, Repr

/-- The firings left in a REARM booking: 1 to 255, or UNLIMITED (R69). -/
inductive Remaining where
  | finite (n : BitVec 8)
  | unlimited
deriving DecidableEq, Repr

/-- ONCE, or REARM with its re-arm distance and its remaining count (R69). -/
inductive Mode where
  | once
  | rearm (distance : Word) (remaining : Remaining)
deriving DecidableEq, Repr

/-- Which step reports may fire an entry (R69, R99). -/
inductive Confidence where
  | trackOnly | trackOrCoast
deriving DecidableEq, Repr

/-- The state RESUME returns an entry to (R69). -/
inductive ResumeState where
  | armed | recovering
deriving DecidableEq, Repr

/-- The state of an entry that holds a booking; SUSPENDED carries its resume state (R69). -/
inductive BookingState where
  | armed
  | recovering
  | suspended (resume : ResumeState)
  | spent
deriving DecidableEq, Repr

/-- The angle and the stamp of a booking's last firing (R71). -/
structure LastFire where
  angle : Word
  stamp : Word
deriving DecidableEq, Repr

/-- One booking: the fields of R69. A field that R69 makes absent stands in the constructor that needs it. -/
structure Booking where
  state : BookingState
  owner : Port
  serial : Word
  tag : Word
  angle : Word
  direction : Direction
  action : Action
  mode : Mode
  confidence : Confidence
  firedTotal : Word
  lastFire : Option LastFire
deriving DecidableEq, Repr

/-- A trigger entry: FREE (none) or one booking (R69). -/
abbrev Entry := Option Booking

/-- A step report (R39). -/
structure StepReport where
  oldAngle : Word
  newAngle : Word
  sign : Sign
  state : StepState
  stamp : Word
  ambiguous : Bool
deriving DecidableEq, Repr

/-- A fire report (R104). -/
structure FireReport where
  port : Port
  index : EntryIndex
  serial : Word
  tag : Word
  angle : Word
  passage : Passage
  stamp : Word
  state : StepState
  final : Bool
deriving DecidableEq, Repr

/-! ## Notices (chapter 6) -/

/-- The kinds of notice a port may subscribe to (R113). -/
structure Subscriptions where
  loop : Bool
  health : Bool
  overspeed : Bool
  activated : Bool
deriving DecidableEq, Repr

/-- One of the two parameter banks (R170). -/
inductive BankId where
  | bank0 | bank1
deriving DecidableEq, Repr

/-- The fields of a FIRED notice, and of an owed item, which becomes one (R117, R124). -/
structure Fired where
  index : EntryIndex
  serial : Word
  tag : Word
  count : BitVec 8
  angle : Word
  passage : Passage
  stamp : Word
  state : StepState
  final : Bool
deriving DecidableEq, Repr

/-- The seven kinds of notice (section 6.2). -/
inductive Notice where
  | fired (f : Fired)
  | loop (old new : LoopState) (cause : LoopCause) (stamp : Word)
  | health (active changed : CauseSet) (stamp : Word)
  | overspeed (velocity : Int) (stamp : Word)
  | activated (bank : BankId) (stamp : Word)
  | leaseGranted
  | summary (loop : LoopState) (step : GainStep) (active : CauseSet) (leaseHeld : Bool) (bank : BankId) (stamp : Word)
deriving DecidableEq, Repr

/-- A notice in a queue with its sequence number (R115). -/
structure QueuedNotice where
  seq : Byte
  notice : Notice
deriving DecidableEq, Repr

/-- The record NU holds for one port (R113), with the level of its attention line (R130). -/
structure NoticePort where
  opened : Bool
  subs : Subscriptions
  queue : List QueuedNotice
  owed : List Fired
  summaryOwed : Bool
  seq : Byte
  markAwaited : Bool
  markTaken : Bool
  /-- ATNp_N: driven low (true) or released (false). -/
  atnLow : Bool
deriving DecidableEq, Repr

/-- NU's copies of device state (R114). -/
structure NoticeCopies where
  loopState : LoopState
  step : GainStep
  active : CauseSet
  holder : Option Port
  bank : BankId
  lastStamp : Word
deriving DecidableEq, Repr

/-! ## Trigger lines (chapter 7) -/

/-- The polarity of a line (R132). -/
inductive Polarity where
  | activeHigh | activeLow
deriving DecidableEq, Repr

/-- The state of a line. The owner is present in IDLE and PULSING, the pulse end in PULSING only (R132). -/
inductive LineState where
  | unowned
  | idle (owner : Port)
  | pulsing (owner : Port) (pulseEnd : Nat)
deriving DecidableEq, Repr

/-- What LU makes of a pin TRG0 to TRG3 (R133). -/
inductive PinDrive where
  | undriven | low | high
deriving DecidableEq, Repr

/-- The record of one line (R132), with what is driven on its pin (R133). -/
structure LineRecord where
  state : LineState
  polarity : Polarity
  width : BitVec 8
  merged : Word
  refs : PerPort Nat
  pin : PinDrive
deriving DecidableEq, Repr

/-- The references purged awaited mark of one port (R142). -/
inductive PurgeMark where
  | clear | referencesPurgedTaken | releaseAllTaken
deriving DecidableEq, Repr

/-! ## Requests and responses (chapters 10 and 11) -/

/-- The requests of section 11.3 with their arguments as they stand in the frame, not yet judged (R186). -/
inductive ReqBody where
  | join (timeout : Word) (subs : Byte)
  | leave
  | ping
  | hostStatus
  | nop
  | readHealth
  | ackHealth
  | readCounters
  | countersClear
  | readAngle
  | readLoop
  | start
  | halt
  | relock
  | book (angle : Word) (direction action line mode : Byte) (distance remaining : Word) (confidence : Byte) (tag : Word)
  | amend (index : Byte) (serial : Word) (changes : Byte) (angle : Word) (direction : Byte) (tag remaining : Word)
  | cancel (index : Byte) (serial : Word)
  | suspend (index : Byte) (serial : Word)
  | resume (index : Byte) (serial : Word)
  | readEntry (index : Byte)
  | listOwn
  | noticePop
  | lineClaim (line polarity width : Byte)
  | lineRelease (line : Byte)
  | linePulse (line : Byte)
  | lineStatus (line : Byte)
  | leaseTake (wait : Byte)
  | leaseDrop
  | leaseCancel
  | paramWrite (field : Byte) (value : Word)
  | paramCopy
  | paramRead (selector field : Byte)
  | activate
deriving DecidableEq, Repr

/-- A request on its way to the block that owns it: the caller's port, the tag and the request (R148, R186). -/
structure Request where
  port : Port
  tag : Byte
  body : ReqBody
deriving DecidableEq, Repr

/-- The status names (section 10.7). -/
inductive Status where
  | ok | accepted | leaseQueued | empty | busy | frameError | unknownRequest | notJoined | closing
  | badArgument | noLease | leaseHeld | activationPending | badParams | wrongState | tableFull
  | quotaReached | notOwner | noEntry | entrySpent | lineHeld | lineNotHeld | lineInUse | queueEmpty
deriving DecidableEq, Repr

/-- A response: status, tag echo and payload (R181). -/
structure Response where
  status : Status
  tag : Byte
  payload : List Byte
deriving DecidableEq, Repr

/-! ## Sessions (chapter 8) -/

/-- The state of a session (section 8.1). -/
inductive SessionState where
  | closed | opened | closing
deriving DecidableEq, Repr

/-- Why a session ended, or why its teardown began (R145). -/
inductive CloseCause where
  | reset | left | expired | rejoined
deriving DecidableEq, Repr

/-- The done reports a teardown still awaits (R145). -/
structure AwaitedDone where
  tt : Bool
  nu : Bool
  si : Bool
  cu : Bool
  lu : Bool
deriving DecidableEq, Repr

/-- The JOIN a rejoin keeps until its teardown completes (R152). -/
structure HeldJoin where
  timeout : Word
  subs : Subscriptions
  tag : Byte
deriving DecidableEq, Repr

/-- The session record of one port (R145). The session timer is stopped (none) or runs toward the tick given. -/
structure Session where
  state : SessionState
  epoch : BitVec 8
  timeout : Word
  timer : Option Nat
  lastCause : CloseCause
  awaited : AwaitedDone
  held : Option HeldJoin
deriving DecidableEq, Repr

/-! ## Parameter banks (chapter 9) -/

/-- The fields of a parameter bank, by the ids 00h to 14h (R170). -/
inductive FieldId where
  | offS | offC | gainC | aLow | aHigh | persistence | staleTimeout | coastLimit | window | tu | td | tl | lw
  | ceiling | floor | vmax | holdOnRecovery | quota0 | quota1 | quota2 | quota3
deriving DecidableEq, Repr

/-- One parameter bank (R170). -/
structure Bank where
  offS : Int
  offC : Int
  gainC : Nat
  aLow : Nat
  aHigh : Nat
  persistence : Nat
  staleTimeout : Nat
  coastLimit : Nat
  window : Nat
  tu : Nat
  td : Nat
  tl : Nat
  lw : Nat
  ceiling : GainStep
  floor : GainStep
  vmax : Nat
  holdOnRecovery : Bool
  quota : PerPort Nat
deriving DecidableEq, Repr

/-! ## Messages of the paths that carry more than one kind (R3) -/

/-- SI → TL: frame and stale messages (R23) and the counter requests SI passes on (R30, R31). -/
inductive SiTlMsg where
  | frame (k : BitVec 4) (sine cosine : Int) (usable : Bool) (stamp : Word)
  | stale
  | readCounters (port : Port) (tag : Byte) (rejected duplicate gap : Word)
  | countersClear (port : Port) (tag : Byte)
deriving DecidableEq, Repr

/-- SI → NU: a health report (R24). -/
structure HealthReport where
  active : CauseSet
  changed : CauseSet
  stamp : Word
deriving DecidableEq, Repr

/-- TL → NU: loop reports (R47) and overspeed reports (R34). -/
inductive TlNuMsg where
  | loop (old new : LoopState) (cause : LoopCause) (stamp : Word) (step : GainStep)
  | overspeed (velocity : Int) (stamp : Word)
deriving DecidableEq, Repr

/-- TL → CU: state messages (R48) and boundary messages (R49). -/
inductive TlCuMsg where
  | state (new : LoopState)
  | boundary
deriving DecidableEq, Repr

/-- TT → NU: fire reports (R104), drop messages (R82) and purge marks (R92). -/
inductive TtNuMsg where
  | fire (r : FireReport)
  | drop (port : Port) (index : EntryIndex) (serial : Word)
  | purgeMark (port : Port)
deriving DecidableEq, Repr

/-- TT → LU: pulse requests (R103) and reference messages (R88). -/
inductive TtLuMsg where
  | pulse (line : Line) (port : Port)
  | referenceAdded (line : Line) (port : Port)
  | referenceRemoved (line : Line) (port : Port)
  | referencesPurged (port : Port)
deriving DecidableEq, Repr

/-- NU → TT: a release message (R126). -/
structure Release where
  index : EntryIndex
  serial : Word
deriving DecidableEq, Repr

/-- NU → HPp: queue length messages (R131) and NU's responses (R190). -/
inductive NuHpMsg where
  | queueLength (n : Nat)
  | response (r : Response)
deriving DecidableEq, Repr

/-- LU → TT: a line owner message, the line and its owner or unowned (R136). -/
structure LineOwner where
  line : Line
  owner : Option Port
deriving DecidableEq, Repr

/-- SU → SI: requests, open p and close p (R26). -/
inductive SuSiMsg where
  | request (r : Request)
  | openPort (p : Port)
  | closePort (p : Port)
deriving DecidableEq, Repr

/-- SU → TT: requests and purges (R73, R92). -/
inductive SuTtMsg where
  | request (r : Request)
  | purge (p : Port)
deriving DecidableEq, Repr

/-- SU → NU: requests, open p with the subscription set, and close p (R128, R129). -/
inductive SuNuMsg where
  | request (r : Request)
  | openPort (p : Port) (subs : Subscriptions)
  | closePort (p : Port)
deriving DecidableEq, Repr

/-- SU → LU: requests and release-all (R134, R142). -/
inductive SuLuMsg where
  | request (r : Request)
  | releaseAll (p : Port)
deriving DecidableEq, Repr

/-- SU → CU: requests and purges (R162, R167). -/
inductive SuCuMsg where
  | request (r : Request)
  | purge (p : Port)
deriving DecidableEq, Repr

/-- SU → HPp: epoch messages (R146) and SU's own responses (R147). -/
inductive SuHpMsg where
  | epoch (e : BitVec 8)
  | response (r : Response)
deriving DecidableEq, Repr

/-- CU → NU: lease reports (R166) and activation reports (R175). -/
inductive CuNuMsg where
  | lease (holder : Option Port) (grant : Bool)
  | activation (bank : BankId)
deriving DecidableEq, Repr

/-! ## Host ports (chapter 10) -/

/-- The response slot; the held response is present in READY only (R181). -/
inductive Slot where
  | idle
  | pending
  | ready (r : Response)
deriving DecidableEq, Repr

/-- The kind of a transaction, fixed from the slot state when CSn_N falls (R188). -/
inductive TransactionKind where
  | idle | pending | ready
deriving DecidableEq, Repr

/-- A transaction in progress (R181): its kind, its outgoing image, its bit count, its received bytes and the
bits of the byte still incomplete. -/
structure Transaction where
  kind : TransactionKind
  image : List Byte
  bitCount : Nat
  received : List Byte
  partialByte : Byte
deriving DecidableEq, Repr

/-- What HPp makes of SDOn: high impedance, or driven with a bit (R182). -/
inductive SdoDrive where
  | highZ
  | driven (level : Bool)
deriving DecidableEq, Repr

/-! ## Reset (R199) -/

/-- Where the device stands in a reset: RESET_N found low, the start time running to the tick given, or running. -/
inductive ResetPhase where
  | low
  | starting (endTick : Nat)
  | running
deriving DecidableEq, Repr

end Sys2Proof.Machine
end

