-- ==== Sys2Proof/Machine/State.lean ====
section
/-! DEFINITION. The state of the TW416: one record for each block, the paths between the blocks, the microsecond
timebase, the place in a reset, and the queue of waiting commands. Each path is held by the block that sends
along it, as a list with the oldest message first (R3); a path to a host port has one list for each port. -/

namespace Sys2Proof.Machine

/-- No command of this device ends in a fault: the manual gives every happening its effect (R2). -/
inductive Fault where
deriving DecidableEq, Repr

/-- The only refusal is exec's, of a command that has no meaning yet. No arm of exec gives it: the type keeps the
name because the host reads it. It is safe: a machine that stops proves nothing about the hardware. -/
inductive Refusal where
  | notModelled (mnemonic : String)
deriving DecidableEq, Repr

/-- Sample Intake (chapter 1) and the paths it sends along. The stale timer is stopped (none, in reset only) or
runs toward the tick given. A sticky set is held for a port recorded as open and for no other (R25). -/
structure SampleIntake where
  baseline : Option (BitVec 4)
  stamp : Word
  staleTimer : Option Nat
  active : CauseSet
  runs : RunCounters
  sticky : PerPort (Option CauseSet)
  rejected : Word
  duplicate : Word
  gap : Word
  reception : Reception
  toTl : List SiTlMsg
  toNu : List HealthReport
  toSu : List Port
  toHp : PerPort (List Response)
deriving DecidableEq, Repr

/-- The loop record (R32). The accumulator and the velocity are in 1/256 count. -/
structure LoopRecord where
  state : LoopState
  acc : BitVec 24
  velocity : Int
  stored : GainStep
  nPlus : Nat
  nMinus : Nat
  position : Nat
  lockRun : Nat
  coastCount : BitVec 8
  clamp : Bool
  usable : Bool
  stamp : Word
  ambiguous : Word
  overspeed : Word
deriving DecidableEq, Repr

/-- Tracking Loop (chapters 2 and 3) and the paths it sends along. -/
structure TrackingLoop where
  loop : LoopRecord
  toTt : List StepReport
  toNu : List TlNuMsg
  toCu : List TlCuMsg
  toHp : PerPort (List Response)
deriving DecidableEq, Repr

/-- Trigger Table (chapters 4 and 5) and the paths it sends along. -/
structure TriggerTable where
  entries : Vector Entry 64
  serial : Word
  lineOwner : PerLine (Option Port)
  toNu : List TtNuMsg
  toLu : List TtLuMsg
  toSu : List Port
  toHp : PerPort (List Response)
deriving DecidableEq, Repr

/-- Notice Unit (chapter 6) and the paths it sends along. -/
structure NoticeUnit where
  ports : PerPort NoticePort
  copies : NoticeCopies
  toTt : List Release
  toSu : List Port
  toHp : PerPort (List NuHpMsg)
deriving DecidableEq, Repr

/-- Line Unit (chapter 7) and the paths it sends along. -/
structure LineUnit where
  lines : PerLine LineRecord
  marks : PerPort PurgeMark
  toTt : List LineOwner
  toSu : List Port
  toHp : PerPort (List Response)
deriving DecidableEq, Repr

/-- Session Unit (chapter 8) and the paths it sends along. -/
structure SessionUnit where
  sessions : PerPort Session
  toSi : List SuSiMsg
  toTl : List Request
  toTt : List SuTtMsg
  toNu : List SuNuMsg
  toLu : List SuLuMsg
  toCu : List SuCuMsg
  toHp : PerPort (List SuHpMsg)
deriving DecidableEq, Repr

/-- Configuration Unit (chapter 9) and the paths it sends along. -/
structure ConfigUnit where
  holder : Option Port
  waiting : List Port
  bank0 : Bank
  bank1 : Bank
  activeIndex : BankId
  activationPending : Bool
  loopIdle : Bool
  toTl : List Request
  toSi : List Request
  toNu : List CuNuMsg
  toSu : List Port
  toHp : PerPort (List Response)
deriving DecidableEq, Repr

/-- A Host Port (R181), what it makes of SDOn, and its path to SU. `sdoShown` is the model's own record of SDOn: the
levels it showed at the rising edges of SCKn in the transaction in progress or, with none, in the last one (R182). -/
structure HostPort where
  slot : Slot
  epoch : BitVec 8
  queueLength : Nat
  transaction : Option Transaction
  sdo : SdoDrive
  sdoShown : List Bool
  toSu : List Request
deriving DecidableEq, Repr

/-- The state of the device. `now` is the number of the last tick of the microsecond timebase (R198). -/
structure State where
  si : SampleIntake
  tl : TrackingLoop
  tt : TriggerTable
  nu : NoticeUnit
  lu : LineUnit
  su : SessionUnit
  cu : ConfigUnit
  hp : PerPort HostPort
  now : Nat
  phase : ResetPhase
  pending : List Instr
deriving DecidableEq, Repr

/-! ## Reset values -/

/-- The same item for every port. -/
def PerPort.all {α : Type} (a : α) : PerPort α := ⟨a, a, a, a⟩

/-- The same item for every line. -/
def PerLine.all {α : Type} (a : α) : PerLine α := ⟨a, a, a, a⟩

/-- The empty set of health causes. -/
def CauseSet.empty : CauseSet := ⟨false, false, false, false⟩

/-- The empty subscription set. -/
def Subscriptions.none : Subscriptions := ⟨false, false, false, false⟩

/-- No done report is awaited. -/
def AwaitedDone.none : AwaitedDone := ⟨false, false, false, false, false⟩

/-- The defaults of a parameter bank (R170). -/
def Bank.default : Bank where
  offS := 0
  offC := 0
  gainC := 1024
  aLow := 512
  aHigh := 2000
  persistence := 4
  staleTimeout := 500
  coastLimit := 32
  window := 32
  tu := 64
  td := 24
  tl := 32
  lw := 2
  ceiling := 0
  floor := 7
  vmax := 4096
  holdOnRecovery := false
  quota := PerPort.all 16

/-- SI after reset (section 1.9), with the stale timer as given. Section 1.9 says of frame reception only that it is idle;
that the receive shifter and the clock count stand at 0 is a DESIGN CHOICE (notes/assumptions/20.md). -/
def SampleIntake.reset (timer : Option Nat) : SampleIntake where
  baseline := none
  stamp := 0
  staleTimer := timer
  active := { CauseSet.empty with stale := true }
  runs := ⟨0, 0, 0, 0⟩
  sticky := PerPort.all none
  rejected := 0
  duplicate := 0
  gap := 0
  reception := ⟨false, 0, 0⟩
  toTl := []
  toNu := []
  toSu := []
  toHp := PerPort.all []

/-- The loop record after reset (R32). -/
def LoopRecord.reset : LoopRecord where
  state := .halted
  acc := 0
  velocity := 0
  stored := 0
  nPlus := 0
  nMinus := 0
  position := 0
  lockRun := 0
  coastCount := 0
  clamp := false
  usable := false
  stamp := 0
  ambiguous := 0
  overspeed := 0

/-- TL after reset (section 2.14). -/
def TrackingLoop.reset : TrackingLoop := ⟨LoopRecord.reset, [], [], [], PerPort.all []⟩

/-- TT after reset (section 4.13). -/
def TriggerTable.reset : TriggerTable where
  entries := Vector.replicate 64 none
  serial := 0
  lineOwner := PerLine.all none
  toNu := []
  toLu := []
  toSu := []
  toHp := PerPort.all []

/-- A port record of NU after reset (R113, R130). -/
def NoticePort.reset : NoticePort where
  opened := false
  subs := Subscriptions.none
  queue := []
  owed := []
  summaryOwed := false
  seq := 0
  markAwaited := false
  markTaken := false
  atnLow := false

/-- NU after reset (section 6.11). -/
def NoticeUnit.reset : NoticeUnit where
  ports := PerPort.all NoticePort.reset
  copies := ⟨.halted, 0, { CauseSet.empty with stale := true }, none, .bank0, 0⟩
  toTt := []
  toSu := []
  toHp := PerPort.all []

/-- A line record after reset (R132, R133). -/
def LineRecord.reset : LineRecord := ⟨.unowned, .activeHigh, 1, 0, PerPort.all 0, .undriven⟩

/-- LU after reset (section 7.8). -/
def LineUnit.reset : LineUnit := ⟨PerLine.all LineRecord.reset, PerPort.all .clear, [], [], PerPort.all []⟩

/-- A session record after reset (R145). -/
def Session.reset : Session := ⟨.closed, 0, 0, none, .reset, AwaitedDone.none, none⟩

/-- SU after reset (section 8.8). -/
def SessionUnit.reset : SessionUnit := ⟨PerPort.all Session.reset, [], [], [], [], [], [], PerPort.all []⟩

/-- CU after reset (R180). -/
def ConfigUnit.reset : ConfigUnit where
  holder := none
  waiting := []
  bank0 := Bank.default
  bank1 := Bank.default
  activeIndex := .bank0
  activationPending := false
  loopIdle := true
  toTl := []
  toSi := []
  toNu := []
  toSu := []
  toHp := PerPort.all []

/-- A host port after reset (R181, R195). SDOn has shown no level. -/
def HostPort.reset : HostPort := ⟨.idle, 0, 0, none, .highZ, [], []⟩

/-- Every block at its reset values, with nothing in flight (R161, R199). The stale timer, the timebase, the place
in the reset and the waiting commands are as given. -/
def State.resetValues (timer : Option Nat) (now : Nat) (phase : ResetPhase) (pending : List Instr) : State where
  si := SampleIntake.reset timer
  tl := TrackingLoop.reset
  tt := TriggerTable.reset
  nu := NoticeUnit.reset
  lu := LineUnit.reset
  su := SessionUnit.reset
  cu := ConfigUnit.reset
  hp := PerPort.all HostPort.reset
  now := now
  phase := phase
  pending := pending

/-- The machine right after reset has ended (R199): every block at its reset values and the stale timer restarted
with 500 µs (R11), so that it expires at the 501st tick (R198). The timebase starts at tick 0, a DESIGN CHOICE
(notes/assumptions/3.md): the manual gives it no value. -/
def State.reset : State := State.resetValues (some (Config.resetStaleTimeout + 1)) 0 .running []

end Sys2Proof.Machine
end

