-- ==== Sys2Proof/Machine/Ops.lean ====
section
/-! DEFINITION. The operations the blocks share: items by port and line, messages put on a path, saturating counters,
sets of causes, timers on the microsecond timebase, and the gate that makes every block ignore what comes
while the device is in reset. -/

namespace Sys2Proof.Machine

/-- What a command answers. -/
abbrev Out := Host.Outcome State Fault Refusal

/-! ## Items by port and by line -/

/-- The item of port p. -/
def PerPort.get {α : Type} (q : PerPort α) : Port → α
  | .p0 => q.p0
  | .p1 => q.p1
  | .p2 => q.p2
  | .p3 => q.p3

/-- Port p's item replaced. -/
def PerPort.set {α : Type} (q : PerPort α) (p : Port) (a : α) : PerPort α :=
  match p with
  | .p0 => { q with p0 := a }
  | .p1 => { q with p1 := a }
  | .p2 => { q with p2 := a }
  | .p3 => { q with p3 := a }

/-- The item of a line. -/
def PerLine.get {α : Type} (q : PerLine α) : Line → α
  | .trg0 => q.trg0
  | .trg1 => q.trg1
  | .trg2 => q.trg2
  | .trg3 => q.trg3

/-- One line's item replaced. -/
def PerLine.set {α : Type} (q : PerLine α) (l : Line) (a : α) : PerLine α :=
  match l with
  | .trg0 => { q with trg0 := a }
  | .trg1 => { q with trg1 := a }
  | .trg2 => { q with trg2 := a }
  | .trg3 => { q with trg3 := a }

/-- A message put at the tail of the path to port p (R3). -/
def PerPort.push {α : Type} (q : PerPort (List α)) (p : Port) (a : α) : PerPort (List α) :=
  q.set p (q.get p ++ [a])

/-- The ports in order. -/
def Port.inOrder : List Port := [.p0, .p1, .p2, .p3]

/-- The lines in order. -/
def Line.inOrder : List Line := [.trg0, .trg1, .trg2, .trg3]

/-! ## Counters -/

/-- A 16-bit counter increased by n, saturating at 65535 (R1). -/
def satAdd16 (c : Word) (n : Nat) : Word := BitVec.ofNat 16 (min 65535 (c.toNat + n))

/-- An 8-bit counter increased by one, saturating at 255. -/
def satInc8 (c : BitVec 8) : BitVec 8 := BitVec.ofNat 8 (min 255 (c.toNat + 1))

/-! ## Sets of health causes -/

/-- The causes of a that are not in b. -/
def CauseSet.diff (a b : CauseSet) : CauseSet :=
  ⟨a.frontEnd && !b.frontEnd, a.lowAmplitude && !b.lowAmplitude, a.saturated && !b.saturated, a.stale && !b.stale⟩

/-- The causes of a or of b. -/
def CauseSet.union (a b : CauseSet) : CauseSet :=
  ⟨a.frontEnd || b.frontEnd, a.lowAmplitude || b.lowAmplitude, a.saturated || b.saturated, a.stale || b.stale⟩

/-- The causes of a that are also in b. -/
def CauseSet.inter (a b : CauseSet) : CauseSet :=
  ⟨a.frontEnd && b.frontEnd, a.lowAmplitude && b.lowAmplitude, a.saturated && b.saturated, a.stale && b.stale⟩

/-- The causes whose state differs between a and b. -/
def CauseSet.differing (a b : CauseSet) : CauseSet := (a.diff b).union (b.diff a)

/-- Health is GOOD when no cause is active (R21). -/
def CauseSet.good (a : CauseSet) : Bool := !(a.frontEnd || a.lowAmplitude || a.saturated || a.stale)

/-! ## Timers -/

/-- The tick at which a timer restarted now with d µs expires: the (d + 1)-th tick after the restart (R198). -/
def timerEnd (now d : Nat) : Nat := now + d + 1

/-- The timebase moved on to tick t, if it has not reached it yet. An expiry named by a command takes place at its
tick, so that no timer expires early (R198); see notes/assumptions/2.md. -/
def State.advanceTo (t : Nat) (s : State) : State := { s with now := max s.now t }

/-- The pulse timer of a line, as the tick of its expiry (R139, R198; DEDUCED, notes/assumptions/6.md). -/
def LineState.timer : LineState → Option Nat
  | .pulsing _ e => some (e + 1)
  | .unowned => none
  | .idle _ => none

/-- The tick toward which a session's timer runs; it runs in OPEN only (R149). -/
def Session.runningTimer (r : Session) : Option Nat :=
  match r.state with
  | .opened => r.timer
  | .closed | .closing => none

/-- The ticks toward which the running timers of the device run: the stale timer, the session timers, the pulse timers
(R198). -/
def State.timers (s : State) : List Nat :=
  s.si.staleTimer.toList ++ Port.inOrder.filterMap (fun p => (s.su.sessions.get p).runningTimer) ++
    Line.inOrder.filterMap (fun l => (s.lu.lines.get l).state.timer)

/-- The timebase stands at tick t or can go there with no running timer's tick passed on the way. -/
def State.mayReach (s : State) (t : Nat) : Bool := decide (t ≤ s.now) || s.timers.all (fun u => decide (t ≤ u))

/-- The expiry of a timer that runs toward tick t, named by a command: the timebase moves to the timer's tick, where the
block takes the expiry as f says. While another timer's tick comes earlier, that expiry comes first, and this
happening is not offered: nothing changes. So a timer expires at its tick, not before it and not after it (R198);
that the timebase moves with the command is a DESIGN CHOICE (notes/assumptions/2.md). -/
def State.expireAt (t : Nat) (s : State) (f : State → State) : State :=
  if s.mayReach t then f (s.advanceTo t) else s

/-! ## The parameter bank in use -/

/-- The active bank (R170). -/
def ConfigUnit.activeBank (c : ConfigUnit) : Bank :=
  match c.activeIndex with
  | .bank0 => c.bank0
  | .bank1 => c.bank1

/-- The standby bank (R170). -/
def ConfigUnit.standbyBank (c : ConfigUnit) : Bank :=
  match c.activeIndex with
  | .bank0 => c.bank1
  | .bank1 => c.bank0

/-- The other bank. -/
def BankId.other : BankId → BankId
  | .bank0 => .bank1
  | .bank1 => .bank0

/-- The bank in use at a happening: the one active when the block takes it (conventions, 'Bank in use'). -/
def State.bank (s : State) : Bank := s.cu.activeBank

/-! ## The gate of a reset -/

/-- Outside a reset a happening has its effect. From RESET_N found low until reset ends, every block holds its reset
values and ignores its inputs, so nothing changes (R199). -/
def State.running (s : State) (f : State → State) : Out :=
  .next (match s.phase with
    | .running => f s
    | .low => s
    | .starting _ => s)

end Sys2Proof.Machine
end

