-- ==== Sys2Proof/Machine/Formats.lean ====
section
/-! DEFINITION. The formats of chapter 11: the encodings of section 11.6, the sample frame, the request frame, the
response image, the notice records and the READ_ENTRY record. -/

namespace Sys2Proof.Machine

/-! ## Bytes -/

/-- A 16-bit value, high byte first (R196). -/
def bytes16 (w : Word) : List Byte := [w.extractLsb' 8 8, w.extractLsb' 0 8]

/-- The 16-bit value of two bytes, high byte first (R196). -/
def word16 (hi lo : Byte) : Word := hi ++ lo

/-- The velocity in three bytes, two's complement, high byte first (R196). -/
def bytesVelocity (v : Int) : List Byte :=
  let w := BitVec.ofInt 24 v
  [w.extractLsb' 16 8, w.extractLsb' 8 8, w.extractLsb' 0 8]

/-- A parameter value in two bytes, two's complement, high byte first (R196). -/
def bytesParam (v : Int) : List Byte := bytes16 (BitVec.ofInt 16 v)

/-- A count in one byte. -/
def byteOf (n : Nat) : Byte := BitVec.ofNat 8 n

/-- A flag: 0 = off or clear, 1 = on or set. -/
def flagByte (b : Bool) : Byte := if b then 1 else 0

/-- The 8-bit sum of a sequence of bytes (R185, R192). -/
def sum8 (l : List Byte) : Byte := l.foldl (· + ·) 0

/-- A frame or an image closed by its check byte, which makes the 8-bit sum 00h (R185, R192). -/
def withCheck (l : List Byte) : List Byte := l ++ [0 - sum8 l]

/-! ## Field encodings (section 11.6) -/

/-- P0 to P3 = 00h to 03h. -/
def Port.byte : Port → Byte
  | .p0 => 0
  | .p1 => 1
  | .p2 => 2
  | .p3 => 3

/-- A port, or none = FFh. -/
def portByte : Option Port → Byte
  | some p => p.byte
  | none => 0xFF

/-- TRG0 to TRG3 = 0 to 3. -/
def Line.byte : Line → Byte
  | .trg0 => 0
  | .trg1 => 1
  | .trg2 => 2
  | .trg3 => 3

/-- HALTED 0, ACQUIRE 1, TRACK 2, COAST 3, LOST 4. -/
def LoopState.byte : LoopState → Byte
  | .halted => 0
  | .acquire => 1
  | .track => 2
  | .coast => 3
  | .lost => 4

/-- START 0, HALT 1, RELOCK 2, LOCKED 3, HEALTH_LOST 4, RECOVERED 5, COAST_LIMIT 6, AMBIGUOUS_STEP 7. -/
def LoopCause.byte : LoopCause → Byte
  | .start => 0
  | .halt => 1
  | .relock => 2
  | .locked => 3
  | .healthLost => 4
  | .recovered => 5
  | .coastLimit => 6
  | .ambiguousStep => 7

/-- S0 to S7 = 0 to 7. -/
def stepByte (g : GainStep) : Byte := byteOf g.val

/-- Bit 0 FRONT_END, bit 1 LOW_AMPLITUDE, bit 2 SATURATED, bit 3 STALE. -/
def CauseSet.byte (c : CauseSet) : Byte :=
  (if c.frontEnd then 1 else 0) + (if c.lowAmplitude then 2 else 0) +
    (if c.saturated then 4 else 0) + (if c.stale then 8 else 0)

/-- The state a reported step was made in, by the loop state encoding. -/
def StepState.byte : StepState → Byte
  | .track => 2
  | .coast => 3

/-- FREE 0, ARMED 1, RECOVERING 2, SUSPENDED 3, SPENT 4. -/
def BookingState.byte : BookingState → Byte
  | .armed => 1
  | .recovering => 2
  | .suspended _ => 3
  | .spent => 4

/-- A resume state, by the entry state encoding. -/
def ResumeState.byte : ResumeState → Byte
  | .armed => 1
  | .recovering => 2

/-- FWD 0, REV 1, BOTH 2. -/
def Direction.byte : Direction → Byte
  | .fwd => 0
  | .rev => 1
  | .both => 2

/-- FWD 0, REV 1. -/
def Passage.byte : Passage → Byte
  | .fwd => 0
  | .rev => 1

/-- NOTICE 0, PULSE 1, NOTICE_AND_PULSE 2. -/
def Action.byte : Action → Byte
  | .notice => 0
  | .pulse _ => 1
  | .noticeAndPulse _ => 2

/-- The line a pulsing action names. -/
def Action.line? : Action → Option Line
  | .notice => none
  | .pulse l => some l
  | .noticeAndPulse l => some l

/-- The action sends notices: NOTICE or NOTICE_AND_PULSE. -/
def Action.notifies : Action → Bool
  | .notice => true
  | .pulse _ => false
  | .noticeAndPulse _ => true

/-- ONCE 0, REARM 1. -/
def Mode.byte : Mode → Byte
  | .once => 0
  | .rearm _ _ => 1

/-- 0001h to 00FFh = 1 to 255; FFFFh = UNLIMITED. -/
def Remaining.word : Remaining → Word
  | .finite n => n.zeroExtend 16
  | .unlimited => 0xFFFF

/-- TRACK_ONLY 0, TRACK_OR_COAST 1. -/
def Confidence.byte : Confidence → Byte
  | .trackOnly => 0
  | .trackOrCoast => 1

/-- ACTIVE_HIGH 0, ACTIVE_LOW 1. -/
def Polarity.byte : Polarity → Byte
  | .activeHigh => 0
  | .activeLow => 1

/-- UNOWNED 0, IDLE 1, PULSING 2. -/
def LineState.byte : LineState → Byte
  | .unowned => 0
  | .idle _ => 1
  | .pulsing _ _ => 2

/-- CLOSED 0, OPEN 1, CLOSING 2. -/
def SessionState.byte : SessionState → Byte
  | .closed => 0
  | .opened => 1
  | .closing => 2

/-- RESET 0, LEFT 1, EXPIRED 2, REJOINED 3. -/
def CloseCause.byte : CloseCause → Byte
  | .reset => 0
  | .left => 1
  | .expired => 2
  | .rejoined => 3

/-- Bank 0 or bank 1, by its number. -/
def BankId.byte : BankId → Byte
  | .bank0 => 0
  | .bank1 => 1

/-- The status codes (section 11.4). -/
def Status.byte : Status → Byte
  | .ok => 0x00
  | .accepted => 0x01
  | .leaseQueued => 0x02
  | .empty => 0x10
  | .busy => 0x11
  | .frameError => 0x20
  | .unknownRequest => 0x21
  | .notJoined => 0x22
  | .closing => 0x23
  | .badArgument => 0x30
  | .noLease => 0x31
  | .leaseHeld => 0x32
  | .activationPending => 0x34
  | .badParams => 0x35
  | .wrongState => 0x36
  | .tableFull => 0x37
  | .quotaReached => 0x38
  | .notOwner => 0x39
  | .noEntry => 0x3A
  | .entrySpent => 0x3B
  | .lineHeld => 0x3C
  | .lineNotHeld => 0x3D
  | .lineInUse => 0x3E
  | .queueEmpty => 0x3F

/-- The field ids 00h to 14h (R170). -/
def FieldId.byte : FieldId → Byte
  | .offS => 0x00
  | .offC => 0x01
  | .gainC => 0x02
  | .aLow => 0x03
  | .aHigh => 0x04
  | .persistence => 0x05
  | .staleTimeout => 0x06
  | .coastLimit => 0x07
  | .window => 0x08
  | .tu => 0x09
  | .td => 0x0A
  | .tl => 0x0B
  | .lw => 0x0C
  | .ceiling => 0x0D
  | .floor => 0x0E
  | .vmax => 0x0F
  | .holdOnRecovery => 0x10
  | .quota0 => 0x11
  | .quota1 => 0x12
  | .quota2 => 0x13
  | .quota3 => 0x14

/-! ## The sample frame (section 11.1) -/

/-- Whether a group of bits holds an even number of ones. -/
def evenOnes {n : Nat} (w : BitVec n) : Bool :=
  ((List.range n).foldl (fun odd i => xor odd (w.getLsbD i)) false) == false

/-- The parity A group: bits 31–16 together with bit 1 (R6). -/
def parityAGroup (f : BitVec 32) : BitVec 17 := f.extractLsb' 16 16 ++ f.extractLsb' 1 1

/-- The parity B group: bits 15–2 together with bit 0 (R6). -/
def parityBGroup (f : BitVec 32) : BitVec 15 := f.extractLsb' 2 14 ++ f.extractLsb' 0 1

/-- The fields of a frame: sequence number 31–28, sine 27–16, cosine 15–4, FE_CLIP 3, FE_FAULT 2. -/
def SampleFrame.ofBits (f : BitVec 32) : SampleFrame where
  seq := f.extractLsb' 28 4
  sine := (f.extractLsb' 16 12).toInt
  cosine := (f.extractLsb' 4 12).toInt
  feClip := f.getLsbD 3
  feFault := f.getLsbD 2

/-- The levels a front end clocks for a frame: bit 31 first (R5, section 11.1). -/
def frameLevels (f : BitVec 32) : List Bool := (List.range 32).map f.getMsbD

/-! ## The request frame (sections 10.4 and 11.3) -/

/-- The argument bytes of a code, or none where the code table has no such code (section 11.3). -/
def argBytes (code : Byte) : Option Nat :=
  match code.toNat with
  | 0x01 => some 3
  | 0x02 => some 0
  | 0x03 => some 0
  | 0x04 => some 0
  | 0x05 => some 0
  | 0x10 => some 0
  | 0x11 => some 0
  | 0x12 => some 0
  | 0x13 => some 0
  | 0x18 => some 0
  | 0x19 => some 0
  | 0x1A => some 0
  | 0x1B => some 0
  | 0x1C => some 0
  | 0x20 => some 13
  | 0x21 => some 11
  | 0x22 => some 3
  | 0x23 => some 3
  | 0x24 => some 3
  | 0x25 => some 1
  | 0x26 => some 0
  | 0x30 => some 0
  | 0x38 => some 3
  | 0x39 => some 1
  | 0x3A => some 1
  | 0x3B => some 1
  | 0x40 => some 1
  | 0x41 => some 0
  | 0x42 => some 0
  | 0x48 => some 3
  | 0x49 => some 0
  | 0x4A => some 2
  | 0x4B => some 0
  | _ => none

/-- The request a code names, with the arguments its argument bytes carry, in the order of section 11.3. -/
def ReqBody.ofBytes (code : Byte) (args : List Byte) : Option ReqBody :=
  match code.toNat, args with
  | 0x01, [t1, t0, s] => some (.join (word16 t1 t0) s)
  | 0x02, [] => some .leave
  | 0x03, [] => some .ping
  | 0x04, [] => some .hostStatus
  | 0x05, [] => some .nop
  | 0x10, [] => some .readHealth
  | 0x11, [] => some .ackHealth
  | 0x12, [] => some .readCounters
  | 0x13, [] => some .countersClear
  | 0x18, [] => some .readAngle
  | 0x19, [] => some .readLoop
  | 0x1A, [] => some .start
  | 0x1B, [] => some .halt
  | 0x1C, [] => some .relock
  | 0x20, [a1, a0, d, ac, l, m, d1, d0, r1, r0, c, t1, t0] =>
    some (.book (word16 a1 a0) d ac l m (word16 d1 d0) (word16 r1 r0) c (word16 t1 t0))
  | 0x21, [i, s1, s0, ch, a1, a0, d, t1, t0, r1, r0] =>
    some (.amend i (word16 s1 s0) ch (word16 a1 a0) d (word16 t1 t0) (word16 r1 r0))
  | 0x22, [i, s1, s0] => some (.cancel i (word16 s1 s0))
  | 0x23, [i, s1, s0] => some (.suspend i (word16 s1 s0))
  | 0x24, [i, s1, s0] => some (.resume i (word16 s1 s0))
  | 0x25, [i] => some (.readEntry i)
  | 0x26, [] => some .listOwn
  | 0x30, [] => some .noticePop
  | 0x38, [l, p, w] => some (.lineClaim l p w)
  | 0x39, [l] => some (.lineRelease l)
  | 0x3A, [l] => some (.linePulse l)
  | 0x3B, [l] => some (.lineStatus l)
  | 0x40, [w] => some (.leaseTake w)
  | 0x41, [] => some .leaseDrop
  | 0x42, [] => some .leaseCancel
  | 0x48, [f, v1, v0] => some (.paramWrite f (word16 v1 v0))
  | 0x49, [] => some .paramCopy
  | 0x4A, [s, f] => some (.paramRead s f)
  | 0x4B, [] => some .activate
  | _, _ => none

/-- The code of a request (section 11.3). -/
def ReqBody.code : ReqBody → Byte
  | .join _ _ => 0x01
  | .leave => 0x02
  | .ping => 0x03
  | .hostStatus => 0x04
  | .nop => 0x05
  | .readHealth => 0x10
  | .ackHealth => 0x11
  | .readCounters => 0x12
  | .countersClear => 0x13
  | .readAngle => 0x18
  | .readLoop => 0x19
  | .start => 0x1A
  | .halt => 0x1B
  | .relock => 0x1C
  | .book _ _ _ _ _ _ _ _ _ => 0x20
  | .amend _ _ _ _ _ _ _ => 0x21
  | .cancel _ _ => 0x22
  | .suspend _ _ => 0x23
  | .resume _ _ => 0x24
  | .readEntry _ => 0x25
  | .listOwn => 0x26
  | .noticePop => 0x30
  | .lineClaim _ _ _ => 0x38
  | .lineRelease _ => 0x39
  | .linePulse _ => 0x3A
  | .lineStatus _ => 0x3B
  | .leaseTake _ => 0x40
  | .leaseDrop => 0x41
  | .leaseCancel => 0x42
  | .paramWrite _ _ => 0x48
  | .paramCopy => 0x49
  | .paramRead _ _ => 0x4A
  | .activate => 0x4B

/-- The argument bytes of a request, in the order of section 11.3. -/
def ReqBody.args : ReqBody → List Byte
  | .join t s => bytes16 t ++ [s]
  | .book a d ac l m dist r c t => bytes16 a ++ [d, ac, l, m] ++ bytes16 dist ++ bytes16 r ++ [c] ++ bytes16 t
  | .amend i s ch a d t r => [i] ++ bytes16 s ++ [ch] ++ bytes16 a ++ [d] ++ bytes16 t ++ bytes16 r
  | .cancel i s => [i] ++ bytes16 s
  | .suspend i s => [i] ++ bytes16 s
  | .resume i s => [i] ++ bytes16 s
  | .readEntry i => [i]
  | .lineClaim l p w => [l, p, w]
  | .lineRelease l => [l]
  | .linePulse l => [l]
  | .lineStatus l => [l]
  | .leaseTake w => [w]
  | .paramWrite f v => [f] ++ bytes16 v
  | .paramRead s f => [s, f]
  | .leave | .ping | .hostStatus | .nop | .readHealth | .ackHealth | .readCounters | .countersClear
  | .readAngle | .readLoop | .start | .halt | .relock | .listOwn | .noticePop | .leaseDrop | .leaseCancel
  | .paramCopy | .activate => []

/-- The request frame a controller sends: code, tag, argument bytes, check byte (R185). -/
def ReqBody.frame (tag : Byte) (b : ReqBody) : List Byte := withCheck (b.code :: tag :: b.args)

/-- The levels a controller clocks for a sequence of bytes: each byte's most significant bit first (R182). -/
def byteLevels (l : List Byte) : List Bool := l.flatMap (fun b => (List.range 8).map b.getMsbD)

/-! ## The response image (R192) -/

/-- Status, tag echo, epoch, queue length, payload length, payload, check byte. -/
def Response.image (r : Response) (epoch : BitVec 8) (queueLength : Nat) : List Byte :=
  withCheck ([r.status.byte, r.tag, epoch, byteOf queueLength, byteOf r.payload.length] ++ r.payload)

/-- The EMPTY and BUSY markers have tag echo 00h and no payload (R192). -/
def Response.marker (st : Status) : Response := ⟨st, 0, []⟩

/-- Bit k, counted from 0, of what SDOn shifts out: the image, most significant bit first, then fill bytes of FFh
(R182, R183). -/
def sdoBit (image : List Byte) (k : Nat) : Bool :=
  ((image[k / 8]?).getD 0xFF).getMsbD (k % 8)

/-! ## Notice records (section 11.5) -/

/-- The record of a notice: kind code, sequence number, fields. -/
def QueuedNotice.record (q : QueuedNotice) : List Byte :=
  match q.notice with
  | .fired f =>
    [0x01, q.seq, byteOf f.index.val] ++ bytes16 f.serial ++ bytes16 f.tag ++ [f.count] ++ bytes16 f.angle ++
      [f.passage.byte] ++ bytes16 f.stamp ++ [f.state.byte, flagByte f.final]
  | .loop old new cause stamp => [0x02, q.seq, old.byte, new.byte, cause.byte] ++ bytes16 stamp
  | .health active changed stamp => [0x03, q.seq, active.byte, changed.byte] ++ bytes16 stamp
  | .overspeed v stamp => [0x04, q.seq] ++ bytesVelocity v ++ bytes16 stamp
  | .activated bank stamp => [0x05, q.seq, bank.byte] ++ bytes16 stamp
  | .leaseGranted => [0x06, q.seq]
  | .summary loop step active held bank stamp =>
    [0x07, q.seq, loop.byte, stepByte step, active.byte, flagByte held, bank.byte] ++ bytes16 stamp

/-! ## The READ_ENTRY record and the LIST_OWN map (section 11.3, R196) -/

/-- The re-arm distance and remaining of a mode, with the fillers of R196 for ONCE. -/
def Mode.words : Mode → List Byte
  | .once => bytes16 0 ++ bytes16 0
  | .rearm d r => bytes16 d ++ bytes16 r.word

/-- The resume state, or its filler FFh (R196). -/
def BookingState.resumeByte : BookingState → Byte
  | .suspended r => r.byte
  | .armed | .recovering | .spent => 0xFF

/-- The record READ_ENTRY returns: the state byte alone for FREE, 24 bytes otherwise. -/
def entryRecord : Entry → List Byte
  | none => [0]
  | some b =>
    [b.state.byte, b.owner.byte] ++ bytes16 b.serial ++ bytes16 b.tag ++ bytes16 b.angle ++
      [b.direction.byte, b.action.byte, (b.action.line?.map Line.byte).getD 0xFF, b.mode.byte] ++
      b.mode.words ++ [b.confidence.byte, b.state.resumeByte] ++ bytes16 b.firedTotal ++
      bytes16 ((b.lastFire.map LastFire.angle).getD 0) ++ bytes16 ((b.lastFire.map LastFire.stamp).getD 0)

/-- The 64-place map as one 64-bit value in which bit i stands for entry i. -/
def ownMap (owned : List Bool) : BitVec 64 :=
  BitVec.ofNat 64 ((owned.zipIdx).foldl (fun m x => if x.1 then m + 2 ^ x.2 else m) 0)

/-- A 64-bit value, high byte first (R196). -/
def bytes64 (w : BitVec 64) : List Byte :=
  [w.extractLsb' 56 8, w.extractLsb' 48 8, w.extractLsb' 40 8, w.extractLsb' 32 8,
    w.extractLsb' 24 8, w.extractLsb' 16 8, w.extractLsb' 8 8, w.extractLsb' 0 8]

end Sys2Proof.Machine
end

