-- ==== Sys2Proof/Machine/Operands.lean ====
section
/-! DEFINITION. The argument checks of the requests: each enumeration byte, set byte and ranged value read from its
encoding, or refused with the argument number of section 11.3 (R197). -/

namespace Sys2Proof.Machine

/-! ## Single arguments (section 11.6) -/

/-- An entry index, 0 to 63 (R74). -/
def indexOf (b : Byte) : Option EntryIndex :=
  if h : b.toNat < 64 then some ⟨b.toNat, h⟩ else none

/-- FWD 0, REV 1, BOTH 2. -/
def directionOf (b : Byte) : Option Direction :=
  match b.toNat with
  | 0 => some .fwd
  | 1 => some .rev
  | 2 => some .both
  | _ => none

/-- TRG0 to TRG3 = 0 to 3. -/
def lineOf (b : Byte) : Option Line :=
  match b.toNat with
  | 0 => some .trg0
  | 1 => some .trg1
  | 2 => some .trg2
  | 3 => some .trg3
  | _ => none

/-- 0001h to 00FFh = 1 to 255; FFFFh = UNLIMITED; every other value is out of range (R197). -/
def remainingOf (w : Word) : Option Remaining :=
  if w = 0xFFFF then some .unlimited
  else if 1 ≤ w.toNat ∧ w.toNat ≤ 255 then some (.finite (w.setWidth 8))
  else none

/-- TRACK_ONLY 0, TRACK_OR_COAST 1. -/
def confidenceOf (b : Byte) : Option Confidence :=
  match b.toNat with
  | 0 => some .trackOnly
  | 1 => some .trackOrCoast
  | _ => none

/-- ACTIVE_HIGH 0, ACTIVE_LOW 1. -/
def polarityOf (b : Byte) : Option Polarity :=
  match b.toNat with
  | 0 => some .activeHigh
  | 1 => some .activeLow
  | _ => none

/-- Bit 0 LOOP, bit 1 HEALTH, bit 2 OVERSPEED, bit 3 ACTIVATED; a bit above bit 3 is out of range (R197). -/
def subscriptionsOf (b : Byte) : Option Subscriptions :=
  if b.toNat < 16 then some ⟨b.getLsbD 0, b.getLsbD 1, b.getLsbD 2, b.getLsbD 3⟩ else none

/-- NO_WAIT 0 (false), WAIT 1 (true). -/
def waitOf (b : Byte) : Option Bool :=
  match b.toNat with
  | 0 => some false
  | 1 => some true
  | _ => none

/-- The field ids 00h to 14h (R170). -/
def fieldOf (b : Byte) : Option FieldId :=
  match b.toNat with
  | 0x00 => some .offS
  | 0x01 => some .offC
  | 0x02 => some .gainC
  | 0x03 => some .aLow
  | 0x04 => some .aHigh
  | 0x05 => some .persistence
  | 0x06 => some .staleTimeout
  | 0x07 => some .coastLimit
  | 0x08 => some .window
  | 0x09 => some .tu
  | 0x0A => some .td
  | 0x0B => some .tl
  | 0x0C => some .lw
  | 0x0D => some .ceiling
  | 0x0E => some .floor
  | 0x0F => some .vmax
  | 0x10 => some .holdOnRecovery
  | 0x11 => some .quota0
  | 0x12 => some .quota1
  | 0x13 => some .quota2
  | 0x14 => some .quota3
  | _ => none

/-- The range of a parameter field (R170), judged on the signed value (R196). -/
def FieldId.inRange (f : FieldId) (v : Int) : Bool :=
  match f with
  | .offS => -128 ≤ v && v ≤ 127
  | .offC => -128 ≤ v && v ≤ 127
  | .gainC => 768 ≤ v && v ≤ 1280
  | .aLow => 64 ≤ v && v ≤ 2046
  | .aHigh => 65 ≤ v && v ≤ 2047
  | .persistence => 1 ≤ v && v ≤ 15
  | .staleTimeout => 50 ≤ v && v ≤ 2000
  | .coastLimit => 1 ≤ v && v ≤ 255
  | .window => v == 16 || v == 32 || v == 64 || v == 128
  | .tu => 1 ≤ v && v ≤ 128
  | .td => 0 ≤ v && v ≤ 127
  | .tl => 0 ≤ v && v ≤ 127
  | .lw => 1 ≤ v && v ≤ 8
  | .ceiling => 0 ≤ v && v ≤ 7
  | .floor => 0 ≤ v && v ≤ 7
  | .vmax => 64 ≤ v && v ≤ 8191
  | .holdOnRecovery => 0 ≤ v && v ≤ 1
  | .quota0 => 0 ≤ v && v ≤ 64
  | .quota1 => 0 ≤ v && v ≤ 64
  | .quota2 => 0 ≤ v && v ≤ 64
  | .quota3 => 0 ≤ v && v ≤ 64

/-! ## The arguments of BOOK, AMEND, JOIN and LINE_CLAIM

A failing check answers with the number of the first argument that is out of range. -/

/-- The arguments of a BOOK that passed its argument check (R75). -/
structure BookArgs where
  angle : Word
  direction : Direction
  action : Action
  mode : Mode
  confidence : Confidence
  tag : Word
deriving DecidableEq, Repr

/-- The action, argument 3, with the line it names, argument 4, which is judged for a pulsing action only (R75). -/
def actionOf (action line : Byte) : Except Nat Action :=
  match action.toNat with
  | 0 => .ok .notice
  | 1 => match lineOf line with
    | some l => .ok (.pulse l)
    | none => .error 4
  | 2 => match lineOf line with
    | some l => .ok (.noticeAndPulse l)
    | none => .error 4
  | _ => .error 3

/-- The mode, argument 5, with the re-arm distance, argument 6, and remaining, argument 7, which are judged for REARM
only (R75). -/
def modeOf (mode : Byte) (distance remaining : Word) : Except Nat Mode :=
  match mode.toNat with
  | 0 => .ok .once
  | 1 =>
    if 1 ≤ distance.toNat ∧ distance.toNat ≤ 16384 then
      match remainingOf remaining with
      | some r => .ok (.rearm distance r)
      | none => .error 7
    else .error 6
  | _ => .error 5

/-- The argument check of BOOK, in argument order (R75). -/
def bookArgs (angle : Word) (direction action line mode : Byte) (distance remaining : Word) (confidence : Byte)
    (tag : Word) : Except Nat BookArgs :=
  match directionOf direction with
  | none => .error 2
  | some d =>
    match actionOf action line with
    | .error n => .error n
    | .ok a =>
      match modeOf mode distance remaining with
      | .error n => .error n
      | .ok m =>
        match confidenceOf confidence with
        | none => .error 8
        | some c => .ok ⟨angle, d, a, m, c, tag⟩

/-- The new values an AMEND names in its change set; a field it does not name is none (R80). -/
structure AmendArgs where
  angle : Option Word
  direction : Option Direction
  tag : Option Word
  remaining : Option Remaining
deriving DecidableEq, Repr

/-- The first check of AMEND: change set (argument 3), a named direction (5), a named remaining (7) (R80). -/
def amendArgs (changes : Byte) (angle : Word) (direction : Byte) (tag remaining : Word) : Except Nat AmendArgs :=
  if 16 ≤ changes.toNat then .error 3
  else if changes.getLsbD 1 && (directionOf direction).isNone then .error 5
  else if changes.getLsbD 3 && (remainingOf remaining).isNone then .error 7
  else .ok {
    angle := if changes.getLsbD 0 then some angle else none
    direction := if changes.getLsbD 1 then directionOf direction else none
    tag := if changes.getLsbD 2 then some tag else none
    remaining := if changes.getLsbD 3 then remainingOf remaining else none }

/-- The argument check of JOIN: timeout 0 to 1000 ms (argument 1), subscription set (argument 2) (R151). -/
def joinArgs (timeout : Word) (subs : Byte) : Except Nat Subscriptions :=
  if 1000 < timeout.toNat then .error 1
  else match subscriptionsOf subs with
    | some s => .ok s
    | none => .error 2

/-- The polarity, argument 2, and the width 1 to 255, argument 3, of a LINE_CLAIM (R135). -/
def claimArgs (polarity width : Byte) : Except Nat Polarity :=
  match polarityOf polarity with
  | none => .error 2
  | some p => if width = 0 then .error 3 else .ok p

end Sys2Proof.Machine
end

