-- ==== Sys2Proof/Machine/ConfigUnit.lean ====
section
/-! DEFINITION. The Configuration Unit (chapter 9): the lease and its wait list, the lease gate, the parameter banks and
their activation. -/

namespace Sys2Proof.Machine

/-! ## One parameter bank -/

namespace Bank

/-- The value of a field (R170). -/
def field (b : Bank) : FieldId → Int
  | .offS => b.offS
  | .offC => b.offC
  | .gainC => b.gainC
  | .aLow => b.aLow
  | .aHigh => b.aHigh
  | .persistence => b.persistence
  | .staleTimeout => b.staleTimeout
  | .coastLimit => b.coastLimit
  | .window => b.window
  | .tu => b.tu
  | .td => b.td
  | .tl => b.tl
  | .lw => b.lw
  | .ceiling => b.ceiling.val
  | .floor => b.floor.val
  | .vmax => b.vmax
  | .holdOnRecovery => if b.holdOnRecovery then 1 else 0
  | .quota0 => b.quota.p0
  | .quota1 => b.quota.p1
  | .quota2 => b.quota.p2
  | .quota3 => b.quota.p3

/-- A field set to a value of its range (R171). -/
def setField (b : Bank) (f : FieldId) (v : Int) : Bank :=
  match f with
  | .offS => { b with offS := v }
  | .offC => { b with offC := v }
  | .gainC => { b with gainC := v.toNat }
  | .aLow => { b with aLow := v.toNat }
  | .aHigh => { b with aHigh := v.toNat }
  | .persistence => { b with persistence := v.toNat }
  | .staleTimeout => { b with staleTimeout := v.toNat }
  | .coastLimit => { b with coastLimit := v.toNat }
  | .window => { b with window := v.toNat }
  | .tu => { b with tu := v.toNat }
  | .td => { b with td := v.toNat }
  | .tl => { b with tl := v.toNat }
  | .lw => { b with lw := v.toNat }
  | .ceiling => { b with ceiling := Fin.ofNat 8 v.toNat }
  | .floor => { b with floor := Fin.ofNat 8 v.toNat }
  | .vmax => { b with vmax := v.toNat }
  | .holdOnRecovery => { b with holdOnRecovery := v == 1 }
  | .quota0 => { b with quota := b.quota.set .p0 v.toNat }
  | .quota1 => { b with quota := b.quota.set .p1 v.toNat }
  | .quota2 => { b with quota := b.quota.set .p2 v.toNat }
  | .quota3 => { b with quota := b.quota.set .p3 v.toNat }

/-- The first cross-field check a bank fails, by the first field of the failing pair (R174). -/
def crossFailure (b : Bank) : Option FieldId :=
  if ¬ b.aLow < b.aHigh then some .aLow
  else if ¬ b.td < b.tu then some .td
  else if ¬ b.ceiling ≤ b.floor then some .ceiling
  else none

end Bank

namespace ConfigUnit

/-- CU's response put on its path to the caller's slot (R190). -/
def answer (c : ConfigUnit) (p : Port) (tag : Byte) (st : Status) (payload : List Byte) : ConfigUnit :=
  { c with toHp := c.toHp.push p ⟨st, tag, payload⟩ }

/-! ## The lease (R162 to R167) -/

/-- The holder changed, with its lease report to NU (R166). -/
def setHolder (c : ConfigUnit) (holder : Option Port) (grant : Bool) : ConfigUnit :=
  { c with holder := holder, toNu := c.toNu ++ [.lease holder grant] }

/-- The lease handed to the head of the wait list, or freed (R164). -/
def handOn (c : ConfigUnit) : ConfigUnit :=
  match c.waiting with
  | q :: rest => { c with waiting := rest }.setHolder (some q) true
  | [] => c.setHolder none false

/-- A port's position in the wait list, 1 for the head (R163). -/
def position (p : Port) (waiting : List Port) : Nat := waiting.idxOf p + 1

/-- LEASE_TAKE (R163). -/
def leaseTake (c : ConfigUnit) (p : Port) (tag : Byte) (wait : Byte) : ConfigUnit :=
  match waitOf wait with
  | none => c.answer p tag .badArgument [1]
  | some w =>
    match c.holder with
    | none => (c.setHolder (some p) false).answer p tag .ok []
    | some h =>
      if h = p then c.answer p tag .ok []
      else if p ∈ c.waiting then c.answer p tag .leaseQueued [byteOf (position p c.waiting)]
      else if w then
        { c with waiting := c.waiting ++ [p] }.answer p tag .leaseQueued [byteOf (c.waiting.length + 1)]
      else c.answer p tag .leaseHeld [h.byte]

/-- LEASE_DROP (R164). -/
def leaseDrop (c : ConfigUnit) (p : Port) (tag : Byte) : ConfigUnit :=
  if c.holder = some p then c.handOn.answer p tag .ok [portByte c.handOn.holder]
  else c.answer p tag .noLease [portByte c.holder]

/-- LEASE_CANCEL (R165). -/
def leaseCancel (c : ConfigUnit) (p : Port) (tag : Byte) : ConfigUnit :=
  if p ∈ c.waiting then { c with waiting := c.waiting.filter (· ≠ p) }.answer p tag .ok []
  else c.answer p tag .noEntry []

/-- A purge of port p (R167). -/
def purge (c : ConfigUnit) (p : Port) : ConfigUnit :=
  let c := if c.holder = some p then c.handOn else c
  { c with waiting := c.waiting.filter (· ≠ p), toSu := c.toSu ++ [p] }

/-- The lease gate: the effect for the holder, NO_LEASE with the present holder for any other port (R168). -/
def gated (c : ConfigUnit) (p : Port) (tag : Byte) (effect : ConfigUnit → ConfigUnit) : ConfigUnit :=
  if c.holder = some p then effect c else c.answer p tag .noLease [portByte c.holder]

/-! ## The banks (R170 to R177) -/

/-- The standby bank replaced. -/
def setStandby (c : ConfigUnit) (b : Bank) : ConfigUnit :=
  match c.activeIndex with
  | .bank0 => { c with bank1 := b }
  | .bank1 => { c with bank0 := b }

/-- PARAM_WRITE from the holder (R171). -/
def paramWrite (c : ConfigUnit) (p : Port) (tag : Byte) (field : Byte) (value : Word) : ConfigUnit :=
  if c.activationPending then c.answer p tag .activationPending []
  else match fieldOf field with
    | none => c.answer p tag .badArgument [1]
    | some f =>
      if f.inRange value.toInt then
        (c.setStandby (c.standbyBank.setField f value.toInt)).answer p tag .ok ([field] ++ bytes16 value)
      else c.answer p tag .badArgument [2]

/-- PARAM_COPY from the holder (R172). -/
def paramCopy (c : ConfigUnit) (p : Port) (tag : Byte) : ConfigUnit :=
  if c.activationPending then c.answer p tag .activationPending []
  else (c.setStandby c.activeBank).answer p tag .ok []

/-- The payload of PARAM_READ: bank number, value, activation-pending flag (R173). -/
def readPayload (c : ConfigUnit) (id : BankId) (bank : Bank) (f : FieldId) : List Byte :=
  [id.byte] ++ bytesParam (bank.field f) ++ [flagByte c.activationPending]

/-- PARAM_READ; the selector is ACTIVE 0 or STANDBY 1 (R173). -/
def paramRead (c : ConfigUnit) (p : Port) (tag : Byte) (selector field : Byte) : ConfigUnit :=
  if 2 ≤ selector.toNat then c.answer p tag .badArgument [1]
  else match fieldOf field with
    | none => c.answer p tag .badArgument [2]
    | some f =>
      if selector = 0 then c.answer p tag .ok (c.readPayload c.activeIndex c.activeBank f)
      else c.answer p tag .ok (c.readPayload c.activeIndex.other c.standbyBank f)

/-- The swap of the banks, with its activation report to NU (R175). -/
def swap (c : ConfigUnit) : ConfigUnit where
  __ := c
  activeIndex := c.activeIndex.other
  activationPending := false
  toNu := c.toNu ++ [.activation c.activeIndex.other]

/-- ACTIVATE from the holder (R174). -/
def activate (c : ConfigUnit) (p : Port) (tag : Byte) : ConfigUnit :=
  if c.activationPending then c.answer p tag .activationPending []
  else match c.standbyBank.crossFailure with
    | some f => c.answer p tag .badParams [f.byte]
    | none =>
      if c.loopIdle then c.swap.answer p tag .ok [c.activeIndex.other.byte]
      else { c with activationPending := true }.answer p tag .accepted []

/-- A state message: the loop-idle flag follows the state it names (R176). -/
def takeState (c : ConfigUnit) (new : LoopState) : ConfigUnit :=
  match new with
  | .halted | .lost => { c with loopIdle := true }
  | .acquire | .track | .coast => { c with loopIdle := false }

/-- A boundary message (R177). -/
def takeBoundary (c : ConfigUnit) : ConfigUnit := if c.activationPending then c.swap else c

end ConfigUnit

/-! ## Commands -/

/-- The message at the head of SU → CU taken off the path. -/
def State.takeSuCu (s : State) (rest : List SuCuMsg) : State := { s with su := { s.su with toCu := rest } }

/-- The message at the head of TL → CU taken off the path. -/
def State.takeTlCu (s : State) (rest : List TlCuMsg) : State := { s with tl := { s.tl with toCu := rest } }

/-- LEASE_TAKE (R163). -/
def execLeaseTake (s : State) : Out :=
  s.running fun s =>
    match s.su.toCu with
    | .request ⟨p, tag, .leaseTake wait⟩ :: rest => { s.takeSuCu rest with cu := s.cu.leaseTake p tag wait }
    | _ => s

/-- LEASE_DROP (R164). -/
def execLeaseDrop (s : State) : Out :=
  s.running fun s =>
    match s.su.toCu with
    | .request ⟨p, tag, .leaseDrop⟩ :: rest => { s.takeSuCu rest with cu := s.cu.leaseDrop p tag }
    | _ => s

/-- LEASE_CANCEL (R165). -/
def execLeaseCancel (s : State) : Out :=
  s.running fun s =>
    match s.su.toCu with
    | .request ⟨p, tag, .leaseCancel⟩ :: rest => { s.takeSuCu rest with cu := s.cu.leaseCancel p tag }
    | _ => s

/-- PARAM_WRITE (R168, R171). -/
def execParamWrite (s : State) : Out :=
  s.running fun s =>
    match s.su.toCu with
    | .request ⟨p, tag, .paramWrite field value⟩ :: rest =>
      { s.takeSuCu rest with cu := s.cu.gated p tag (·.paramWrite p tag field value) }
    | _ => s

/-- PARAM_COPY (R168, R172). -/
def execParamCopy (s : State) : Out :=
  s.running fun s =>
    match s.su.toCu with
    | .request ⟨p, tag, .paramCopy⟩ :: rest =>
      { s.takeSuCu rest with cu := s.cu.gated p tag (·.paramCopy p tag) }
    | _ => s

/-- PARAM_READ (R173). -/
def execParamRead (s : State) : Out :=
  s.running fun s =>
    match s.su.toCu with
    | .request ⟨p, tag, .paramRead selector field⟩ :: rest =>
      { s.takeSuCu rest with cu := s.cu.paramRead p tag selector field }
    | _ => s

/-- ACTIVATE (R168, R174). -/
def execActivate (s : State) : Out :=
  s.running fun s =>
    match s.su.toCu with
    | .request ⟨p, tag, .activate⟩ :: rest =>
      { s.takeSuCu rest with cu := s.cu.gated p tag (·.activate p tag) }
    | _ => s

/-- An admitted START, HALT or RELOCK goes to TL, an admitted COUNTERS_CLEAR to SI (R169). -/
def ConfigUnit.forwardGated (c : ConfigUnit) (r : Request) : ConfigUnit :=
  match r.body with
  | .countersClear => { c with toSi := c.toSi ++ [r] }
  | _ => { c with toTl := c.toTl ++ [r] }

/-- The requests CU forwards (R169). -/
def ReqBody.forwardedByCu : ReqBody → Bool
  | .start | .halt | .relock | .countersClear => true
  | _ => false

/-- LEASE_GATED_FORWARD (R168, R169). -/
def execLeaseGatedForward (s : State) : Out :=
  s.running fun s =>
    match s.su.toCu with
    | .request r :: rest =>
      if r.body.forwardedByCu then
        { s.takeSuCu rest with cu := s.cu.gated r.port r.tag (·.forwardGated r) }
      else s
    | _ => s

/-- PURGE_AT_CU (R167). -/
def execPurgeAtCu (s : State) : Out :=
  s.running fun s =>
    match s.su.toCu with
    | .purge p :: rest => { s.takeSuCu rest with cu := s.cu.purge p }
    | _ => s

/-- STATE_MESSAGE (R176). -/
def execStateMessage (s : State) : Out :=
  s.running fun s =>
    match s.tl.toCu with
    | .state new :: rest => { s.takeTlCu rest with cu := s.cu.takeState new }
    | _ => s

/-- BOUNDARY_MESSAGE (R177). -/
def execBoundaryMessage (s : State) : Out :=
  s.running fun s =>
    match s.tl.toCu with
    | .boundary :: rest => { s.takeTlCu rest with cu := s.cu.takeBoundary }
    | _ => s

end Sys2Proof.Machine
end

