-- ==== Sys2Proof/Machine/SineTable.lean ====
section
/-! DEFINITION. The device's sine table (R36): 4096 entries, entry j being 2047 × sin(2πj/4096) rounded to the nearest
whole number, halves away from zero. The first quarter is written out, entries 0 to 1024; the other three follow from
it, since the sine of the second quarter runs back over the first and the second half turn repeats the first negated. -/

namespace Sys2Proof.Machine

/-- Entries 0 to 255 of the sine table, 32 to a row. -/
def quarterSine0 : List (List Nat) :=
  [[0, 3, 6, 9, 13, 16, 19, 22, 25, 28, 31, 35, 38, 41, 44, 47, 50, 53, 57, 60, 63, 66, 69, 72, 75, 78, 82, 85,
    88, 91, 94, 97],
   [100, 104, 107, 110, 113, 116, 119, 122, 126, 129, 132, 135, 138, 141, 144, 147, 151, 154, 157, 160, 163, 166,
    169, 172, 176, 179, 182, 185, 188, 191, 194, 198],
   [201, 204, 207, 210, 213, 216, 219, 223, 226, 229, 232, 235, 238, 241, 244, 247, 251, 254, 257, 260, 263, 266,
    269, 272, 275, 279, 282, 285, 288, 291, 294, 297],
   [300, 303, 307, 310, 313, 316, 319, 322, 325, 328, 331, 334, 338, 341, 344, 347, 350, 353, 356, 359, 362, 365,
    369, 372, 375, 378, 381, 384, 387, 390, 393, 396],
   [399, 402, 406, 409, 412, 415, 418, 421, 424, 427, 430, 433, 436, 439, 442, 445, 449, 452, 455, 458, 461, 464,
    467, 470, 473, 476, 479, 482, 485, 488, 491, 494],
   [497, 500, 503, 507, 510, 513, 516, 519, 522, 525, 528, 531, 534, 537, 540, 543, 546, 549, 552, 555, 558, 561,
    564, 567, 570, 573, 576, 579, 582, 585, 588, 591],
   [594, 597, 600, 603, 606, 609, 612, 615, 618, 621, 624, 627, 630, 633, 636, 639, 642, 645, 648, 651, 654, 657,
    660, 663, 666, 669, 672, 675, 678, 681, 684, 687],
   [690, 693, 696, 698, 701, 704, 707, 710, 713, 716, 719, 722, 725, 728, 731, 734, 737, 740, 743, 745, 748, 751,
    754, 757, 760, 763, 766, 769, 772, 775, 778, 780]]

/-- Entries 256 to 511 of the sine table, 32 to a row. -/
def quarterSine1 : List (List Nat) :=
  [[783, 786, 789, 792, 795, 798, 801, 804, 807, 809, 812, 815, 818, 821, 824, 827, 830, 832, 835, 838, 841, 844,
    847, 850, 852, 855, 858, 861, 864, 867, 870, 872],
   [875, 878, 881, 884, 887, 889, 892, 895, 898, 901, 903, 906, 909, 912, 915, 918, 920, 923, 926, 929, 932, 934,
    937, 940, 943, 946, 948, 951, 954, 957, 959, 962],
   [965, 968, 970, 973, 976, 979, 982, 984, 987, 990, 993, 995, 998, 1001, 1003, 1006, 1009, 1012, 1014, 1017,
    1020, 1023, 1025, 1028, 1031, 1033, 1036, 1039, 1042, 1044, 1047, 1050],
   [1052, 1055, 1058, 1060, 1063, 1066, 1068, 1071, 1074, 1077, 1079, 1082, 1085, 1087, 1090, 1092, 1095, 1098,
    1100, 1103, 1106, 1108, 1111, 1114, 1116, 1119, 1122, 1124, 1127, 1129, 1132, 1135],
   [1137, 1140, 1142, 1145, 1148, 1150, 1153, 1155, 1158, 1161, 1163, 1166, 1168, 1171, 1174, 1176, 1179, 1181,
    1184, 1186, 1189, 1191, 1194, 1197, 1199, 1202, 1204, 1207, 1209, 1212, 1214, 1217],
   [1219, 1222, 1224, 1227, 1229, 1232, 1234, 1237, 1239, 1242, 1244, 1247, 1249, 1252, 1254, 1257, 1259, 1262,
    1264, 1267, 1269, 1272, 1274, 1277, 1279, 1282, 1284, 1286, 1289, 1291, 1294, 1296],
   [1299, 1301, 1303, 1306, 1308, 1311, 1313, 1316, 1318, 1320, 1323, 1325, 1328, 1330, 1332, 1335, 1337, 1339,
    1342, 1344, 1347, 1349, 1351, 1354, 1356, 1358, 1361, 1363, 1365, 1368, 1370, 1372],
   [1375, 1377, 1379, 1382, 1384, 1386, 1389, 1391, 1393, 1395, 1398, 1400, 1402, 1405, 1407, 1409, 1411, 1414,
    1416, 1418, 1421, 1423, 1425, 1427, 1430, 1432, 1434, 1436, 1439, 1441, 1443, 1445]]

/-- Entries 512 to 767 of the sine table, 32 to a row. -/
def quarterSine2 : List (List Nat) :=
  [[1447, 1450, 1452, 1454, 1456, 1459, 1461, 1463, 1465, 1467, 1469, 1472, 1474, 1476, 1478, 1480, 1483, 1485,
    1487, 1489, 1491, 1493, 1495, 1498, 1500, 1502, 1504, 1506, 1508, 1510, 1513, 1515],
   [1517, 1519, 1521, 1523, 1525, 1527, 1529, 1531, 1533, 1536, 1538, 1540, 1542, 1544, 1546, 1548, 1550, 1552,
    1554, 1556, 1558, 1560, 1562, 1564, 1566, 1568, 1570, 1572, 1574, 1576, 1578, 1580],
   [1582, 1584, 1586, 1588, 1590, 1592, 1594, 1596, 1598, 1600, 1602, 1604, 1606, 1608, 1610, 1612, 1614, 1616,
    1618, 1620, 1621, 1623, 1625, 1627, 1629, 1631, 1633, 1635, 1637, 1639, 1640, 1642],
   [1644, 1646, 1648, 1650, 1652, 1653, 1655, 1657, 1659, 1661, 1663, 1665, 1666, 1668, 1670, 1672, 1674, 1675,
    1677, 1679, 1681, 1683, 1684, 1686, 1688, 1690, 1691, 1693, 1695, 1697, 1699, 1700],
   [1702, 1704, 1705, 1707, 1709, 1711, 1712, 1714, 1716, 1718, 1719, 1721, 1723, 1724, 1726, 1728, 1729, 1731,
    1733, 1734, 1736, 1738, 1739, 1741, 1743, 1744, 1746, 1748, 1749, 1751, 1753, 1754],
   [1756, 1757, 1759, 1761, 1762, 1764, 1765, 1767, 1769, 1770, 1772, 1773, 1775, 1776, 1778, 1780, 1781, 1783,
    1784, 1786, 1787, 1789, 1790, 1792, 1793, 1795, 1796, 1798, 1799, 1801, 1802, 1804],
   [1805, 1807, 1808, 1810, 1811, 1813, 1814, 1816, 1817, 1818, 1820, 1821, 1823, 1824, 1826, 1827, 1828, 1830,
    1831, 1833, 1834, 1835, 1837, 1838, 1840, 1841, 1842, 1844, 1845, 1846, 1848, 1849],
   [1850, 1852, 1853, 1854, 1856, 1857, 1858, 1860, 1861, 1862, 1864, 1865, 1866, 1868, 1869, 1870, 1871, 1873,
    1874, 1875, 1876, 1878, 1879, 1880, 1881, 1883, 1884, 1885, 1886, 1888, 1889, 1890]]

/-- Entries 768 to 1023 of the sine table, 32 to a row. -/
def quarterSine3 : List (List Nat) :=
  [[1891, 1892, 1894, 1895, 1896, 1897, 1898, 1899, 1901, 1902, 1903, 1904, 1905, 1906, 1908, 1909, 1910, 1911,
    1912, 1913, 1914, 1915, 1917, 1918, 1919, 1920, 1921, 1922, 1923, 1924, 1925, 1926],
   [1927, 1928, 1929, 1930, 1932, 1933, 1934, 1935, 1936, 1937, 1938, 1939, 1940, 1941, 1942, 1943, 1944, 1945,
    1946, 1947, 1948, 1949, 1950, 1950, 1951, 1952, 1953, 1954, 1955, 1956, 1957, 1958],
   [1959, 1960, 1961, 1962, 1962, 1963, 1964, 1965, 1966, 1967, 1968, 1969, 1969, 1970, 1971, 1972, 1973, 1974,
    1975, 1975, 1976, 1977, 1978, 1979, 1979, 1980, 1981, 1982, 1983, 1983, 1984, 1985],
   [1986, 1986, 1987, 1988, 1989, 1989, 1990, 1991, 1992, 1992, 1993, 1994, 1994, 1995, 1996, 1997, 1997, 1998,
    1999, 1999, 2000, 2001, 2001, 2002, 2003, 2003, 2004, 2005, 2005, 2006, 2006, 2007],
   [2008, 2008, 2009, 2009, 2010, 2011, 2011, 2012, 2012, 2013, 2014, 2014, 2015, 2015, 2016, 2016, 2017, 2017,
    2018, 2018, 2019, 2019, 2020, 2021, 2021, 2022, 2022, 2022, 2023, 2023, 2024, 2024],
   [2025, 2025, 2026, 2026, 2027, 2027, 2028, 2028, 2028, 2029, 2029, 2030, 2030, 2030, 2031, 2031, 2032, 2032,
    2032, 2033, 2033, 2033, 2034, 2034, 2035, 2035, 2035, 2036, 2036, 2036, 2037, 2037],
   [2037, 2037, 2038, 2038, 2038, 2039, 2039, 2039, 2039, 2040, 2040, 2040, 2040, 2041, 2041, 2041, 2041, 2042,
    2042, 2042, 2042, 2043, 2043, 2043, 2043, 2043, 2044, 2044, 2044, 2044, 2044, 2044],
   [2045, 2045, 2045, 2045, 2045, 2045, 2045, 2045, 2046, 2046, 2046, 2046, 2046, 2046, 2046, 2046, 2046, 2046,
    2047, 2047, 2047, 2047, 2047, 2047, 2047, 2047, 2047, 2047, 2047, 2047, 2047, 2047]]

/-- Entries 0 to 1024 of the sine table, 32 to a row, the last row holding entry 1024 alone. -/
def quarterSine : List (List Nat) := quarterSine0 ++ quarterSine1 ++ quarterSine2 ++ quarterSine3 ++ [[2047]]

/-- Entry i of the first quarter, i from 0 to 1024. -/
def quarterEntry (i : Nat) : Int := (((quarterSine[i / 32]?).getD [])[i % 32]?).getD 0

/-- Entry j of the sine table (R36). -/
def sineEntry (j : BitVec 12) : Int :=
  let i := j.toNat % 1024
  match j.toNat / 1024 with
  | 0 => quarterEntry i
  | 1 => quarterEntry (1024 - i)
  | 2 => -quarterEntry i
  | _ => -quarterEntry (1024 - i)

end Sys2Proof.Machine
end

