-- ==== Sys2Proof/Machine/TrackingLoop.lean ====
section
/-! DEFINITION. The Tracking Loop (chapters 2 and 3): the step arithmetic, the gain ladder and the lock judgement, the
loop's transitions and their reports, and the requests and messages the loop takes. Each function takes the bank in
use as `b` (R56). -/

namespace Sys2Proof.Machine

/-! ## The step arithmetic -/

/-- The angle of an accumulator value: divided by 256, fraction dropped (R33). -/
def angleOf (acc : BitVec 24) : Word := acc.extractLsb' 8 16

/-- A displacement added to the accumulator, reduced modulo 16,777,216 (R33). -/
def moveAcc (acc : BitVec 24) (d : Int) : BitVec 24 := acc + BitVec.ofInt 24 d

/-- Kp of a gain step, in 1/256 count (section 2.3). -/
def gainKp (e : GainStep) : Int :=
  match e.val with
  | 0 => 131072
  | 1 => 65536
  | 2 => 32768
  | 3 => 16384
  | 4 => 8192
  | 5 => 4096
  | 6 => 2048
  | _ => 1024

/-- Ki of a gain step, in 1/256 count per sample period (section 2.3). -/
def gainKi (e : GainStep) : Int :=
  match e.val with
  | 0 => 16384
  | 1 => 4096
  | 2 => 1024
  | 3 => 256
  | 4 => 64
  | 5 => 16
  | 6 => 4
  | _ => 1

/-- The sign of a whole number. -/
def signOf (x : Int) : Sign := if 0 < x then .pos else if x < 0 then .neg else .zero

/-- A sign as a whole number. -/
def Sign.toInt : Sign → Int
  | .neg => -1
  | .zero => 0
  | .pos => 1

/-- Ss(θ): the entry numbered by the upper 12 bits of θ (R36). -/
def sineAt (θ : Word) : Int := sineEntry (θ.extractLsb' 4 12)

/-- Cs(θ): the entry a quarter turn ahead (R36). -/
def cosineAt (θ : Word) : Int := sineAt (θ + 16384)

/-- The error sign of a corrected pair against the predicted angle (R36). -/
def errorSign (sine cosine : Int) (θ : Word) : Sign := signOf (sine * cosineAt θ - cosine * sineAt θ)

/-- A stored step limited to the range from the ceiling to the floor (R35). -/
def limitStep (b : Bank) (g : GainStep) : GainStep :=
  if g < b.ceiling then b.ceiling else if b.floor < g then b.floor else g

/-- The effective step of the loop's present state (R35). -/
def LoopRecord.effectiveStep (b : Bank) (l : LoopRecord) : GainStep :=
  match l.state with
  | .acquire => b.ceiling
  | .halted | .track | .coast | .lost => limitStep b l.stored

/-- The distance the held velocity sweeps over the gap and the present period (R37). -/
def LoopRecord.sweep (k : BitVec 4) (l : LoopRecord) : Int := (k.toNat + 1) * l.velocity

/-- The prediction P of a step (R37, item 1). -/
def LoopRecord.predicted (k : BitVec 4) (l : LoopRecord) : BitVec 24 := moveAcc l.acc (l.sweep k)

/-- The displacement D of a step in ACQUIRE or TRACK (R37, item 6). -/
def LoopRecord.displacement (b : Bank) (k : BitVec 4) (s : Sign) (l : LoopRecord) : Int :=
  l.sweep k + s.toInt * gainKp (l.effectiveStep b)

/-- A displacement whose direction cannot be trusted (R38). -/
def isAmbiguous (d : Int) : Bool := Config.ambiguityLimit ≤ d.natAbs

/-- The imbalance of an ended window (R59). -/
def imbalance (nPlus nMinus w : Nat) : Nat := min 128 (((nPlus : Int) - nMinus).natAbs * 128 / w)

/-- The ladder move at a TRACK window end: limit, then at most one place by Tu or Td (R61). -/
def ladderMove (b : Bank) (stored : GainStep) (i : Nat) : GainStep :=
  let g := limitStep b stored
  if b.tu ≤ i then (if g = b.ceiling then g else g - 1)
  else if i ≤ b.td then (if g = b.floor then g else g + 1)
  else g

namespace TrackingLoop

/-- TL's response put on its path to the caller's slot (R190). -/
def answer (t : TrackingLoop) (p : Port) (tag : Byte) (st : Status) (payload : List Byte) : TrackingLoop :=
  { t with toHp := t.toHp.push p ⟨st, tag, payload⟩ }

/-! ## Transitions -/

/-- The fields a transition sets as the loop enters its new state (R46, R60). -/
def enter (b : Bank) (new : LoopState) (cause : LoopCause) (l : LoopRecord) : LoopRecord :=
  match new with
  | .halted => { l with state := .halted }
  | .acquire =>
    { l with
      state := .acquire, nPlus := 0, nMinus := 0, position := 0, lockRun := 0
      velocity := if cause = .start then 0 else l.velocity }
  | .track =>
    { l with
      state := .track, nPlus := 0, nMinus := 0, position := 0, lockRun := 0
      stored := if l.state = .acquire then b.ceiling else l.stored }
  | .coast => { l with state := .coast, coastCount := 0 }
  | .lost => { l with state := .lost, velocity := 0 }

/-- A transition: the entry effects, then the loop report to NU, the state message to CU and, for HALTED and LOST, the
boundary message (R46 to R49). -/
def transition (b : Bank) (new : LoopState) (cause : LoopCause) (stamp : Word) (t : TrackingLoop) : TrackingLoop :=
  let l := enter b new cause t.loop
  { t with
    loop := l
    toNu := t.toNu ++ [.loop t.loop.state new cause stamp (l.effectiveStep b)]
    toCu := t.toCu ++ match new with
      | .halted | .lost => [.state new, .boundary]
      | .acquire | .track | .coast => [.state new] }

/-! ## Steps -/

/-- The velocity check of a step, on the candidate velocity `v` (R34). -/
def checkVelocity (b : Bank) (stamp : Word) (v : Int) (t : TrackingLoop) : TrackingLoop :=
  let limit : Int := (b.vmax : Int) * 256
  if limit < v.natAbs then
    let clamped := if v < 0 then -limit else limit
    { t with
      loop := { t.loop with velocity := clamped, clamp := true, overspeed := satAdd16 t.loop.overspeed 1 }
      toNu := if t.loop.clamp then t.toNu else t.toNu ++ [.overspeed clamped stamp] }
  else { t with loop := { t.loop with velocity := v, clamp := false } }

/-- The ambiguity test and the step report of a step made in `state` from accumulator `old` with displacement `d`
(R38, R39). -/
def report (state : StepState) (old : BitVec 24) (d : Int) (stamp : Word) (t : TrackingLoop) : TrackingLoop :=
  { t with
    loop := { t.loop with
      ambiguous := if isAmbiguous d then satAdd16 t.loop.ambiguous 1 else t.loop.ambiguous }
    toTt := t.toTt ++ [⟨angleOf old, angleOf t.loop.acc, signOf d, state, stamp, isAmbiguous d⟩] }

/-- One step counted into the judgement window (R57). -/
def countStep (s : Sign) (l : LoopRecord) : LoopRecord where
  __ := l
  position := l.position + 1
  nPlus := if s = .pos then l.nPlus + 1 else l.nPlus
  nMinus := if s = .neg then l.nMinus + 1 else l.nMinus

/-- The judgement of an ended window with imbalance i: the ladder move in TRACK (R61), the lock run in ACQUIRE
(R63, R64). -/
def judgeWindow (b : Bank) (madeIn : LoopState) (i : Nat) (stamp : Word) (t : TrackingLoop) : TrackingLoop :=
  match madeIn with
  | .track => { t with loop := { t.loop with stored := ladderMove b t.loop.stored i } }
  | .acquire =>
    if i ≤ b.tl then
      let run := t.loop.lockRun + 1
      let t := { t with loop := { t.loop with lockRun := run } }
      if b.lw ≤ run then t.transition b .track .locked stamp else t
    else { t with loop := { t.loop with lockRun := 0 } }
  | .halted | .coast | .lost => t

/-- A counted step of error sign `s` made in `madeIn`: counted, and the window ended and judged when its position
reaches W (R57, R58). -/
def window (b : Bank) (madeIn : LoopState) (s : Sign) (stamp : Word) (t : TrackingLoop) : TrackingLoop :=
  let l := countStep s t.loop
  if b.window ≤ l.position then
    judgeWindow b madeIn (imbalance l.nPlus l.nMinus b.window) stamp
      { t with
        loop := { l with nPlus := 0, nMinus := 0, position := 0 }
        toCu := t.toCu ++ [.boundary] }
  else { t with loop := l }

/-- The velocity check of a step's candidate velocity, and the new accumulator (R37, items 3 to 5). -/
def correct (b : Bank) (k : BitVec 4) (s : Sign) (stamp : Word) (t : TrackingLoop) : TrackingLoop :=
  let e := t.loop.effectiveStep b
  let u := t.checkVelocity b stamp (t.loop.velocity + s.toInt * gainKi e)
  { u with loop := { u.loop with acc := moveAcc (t.loop.predicted k) (s.toInt * gainKp e) } }

/-- A step in ACQUIRE or TRACK on a usable frame with gap k (R37). -/
def step (b : Bank) (k : BitVec 4) (sine cosine : Int) (stamp : Word) (t : TrackingLoop) : TrackingLoop :=
  let s := errorSign sine cosine (angleOf (t.loop.predicted k))
  let u := t.correct b k s stamp
  match t.loop.state with
  | .track =>
    let d := t.loop.displacement b k s
    let u := (u.report .track t.loop.acc d stamp).window b .track s stamp
    if isAmbiguous d then u.transition b .acquire .ambiguousStep stamp else u
  | .acquire | .halted | .coast | .lost => u.window b .acquire s stamp

/-- The velocity check of the held velocity, the angle carried forward, and the coast count (R40, items 1 to 3). -/
def extrapolate (b : Bank) (k : BitVec 4) (stamp : Word) (t : TrackingLoop) : TrackingLoop :=
  let u := t.checkVelocity b stamp t.loop.velocity
  { u with loop := { u.loop with acc := u.loop.predicted k, coastCount := satInc8 u.loop.coastCount } }

/-- A step in COAST on a frame with gap k (R40, R41). -/
def coastStep (b : Bank) (k : BitVec 4) (stamp : Word) (t : TrackingLoop) : TrackingLoop :=
  let u := t.extrapolate b k stamp
  let d := u.loop.sweep k
  let u := u.report .coast t.loop.acc d stamp
  if isAmbiguous d then u.transition b .lost .ambiguousStep stamp
  else if b.coastLimit ≤ u.loop.coastCount.toNat then u.transition b .lost .coastLimit stamp
  else u

/-! ## Messages from SI -/

/-- The records a frame message makes in any state (R42). -/
def note (usable : Bool) (stamp : Word) (t : TrackingLoop) : TrackingLoop :=
  { t with loop := { t.loop with usable := usable, stamp := stamp } }

/-- A frame message whose records are made, in each loop state (R43, R44). -/
def takeNoted (b : Bank) (k : BitVec 4) (sine cosine : Int) (usable : Bool) (stamp : Word) (t : TrackingLoop) :
    TrackingLoop :=
  match t.loop.state, usable with
  | .halted, _ => t
  | .acquire, true => t.step b k sine cosine stamp
  | .acquire, false => t.transition b .lost .healthLost stamp
  | .track, true => t.step b k sine cosine stamp
  | .track, false => (t.transition b .coast .healthLost stamp).coastStep b k stamp
  | .coast, true =>
    (t.transition b (if b.holdOnRecovery then .track else .acquire) .recovered stamp).step b k sine cosine stamp
  | .coast, false => t.coastStep b k stamp
  | .lost, true => (t.transition b .acquire .recovered stamp).step b k sine cosine stamp
  | .lost, false => t

/-- A frame message (R42 to R44). -/
def takeFrame (b : Bank) (k : BitVec 4) (sine cosine : Int) (usable : Bool) (stamp : Word) (t : TrackingLoop) :
    TrackingLoop :=
  (t.note usable stamp).takeNoted b k sine cosine usable stamp

/-- A stale message in each loop state (R42, R45). -/
def takeStale (b : Bank) (t : TrackingLoop) : TrackingLoop :=
  let noted := t.note false t.loop.stamp
  match t.loop.state with
  | .acquire | .track | .coast => noted.transition b .lost .healthLost t.loop.stamp
  | .halted | .lost => noted

/-! ## Requests -/

/-- START (R50). -/
def start (b : Bank) (p : Port) (tag : Byte) (t : TrackingLoop) : TrackingLoop :=
  match t.loop.state with
  | .halted =>
    let new : LoopState := if t.loop.usable then .acquire else .lost
    (t.transition b new .start t.loop.stamp).answer p tag .ok [new.byte]
  | .acquire | .track | .coast | .lost => t.answer p tag .wrongState [t.loop.state.byte]

/-- HALT (R51). -/
def halt (b : Bank) (p : Port) (tag : Byte) (t : TrackingLoop) : TrackingLoop :=
  match t.loop.state with
  | .halted => t.answer p tag .ok []
  | .acquire | .track | .coast | .lost => (t.transition b .halted .halt t.loop.stamp).answer p tag .ok []

/-- RELOCK (R52). -/
def relock (b : Bank) (p : Port) (tag : Byte) (t : TrackingLoop) : TrackingLoop :=
  match t.loop.state with
  | .track | .coast => (t.transition b .acquire .relock t.loop.stamp).answer p tag .ok []
  | .halted | .acquire | .lost => t.answer p tag .wrongState [t.loop.state.byte]

/-- The payload of READ_ANGLE (R53, section 11.3). -/
def anglePayload (b : Bank) (l : LoopRecord) : List Byte :=
  bytes16 (angleOf l.acc) ++ bytesVelocity l.velocity ++
    [l.state.byte, stepByte (l.effectiveStep b), flagByte l.usable] ++ bytes16 l.stamp

/-- The payload of READ_LOOP (R54, section 11.3). -/
def loopPayload (b : Bank) (l : LoopRecord) : List Byte :=
  [l.state.byte, stepByte l.stored, stepByte (l.effectiveStep b), byteOf l.nPlus, byteOf l.nMinus,
    byteOf l.position, byteOf l.lockRun, l.coastCount, flagByte l.clamp]

/-- The payload of READ_COUNTERS: REJECTED, DUPLICATE, GAP, AMBIGUOUS, OVERSPEED (R30). -/
def countersPayload (rejected duplicate gap : Word) (l : LoopRecord) : List Byte :=
  bytes16 rejected ++ bytes16 duplicate ++ bytes16 gap ++ bytes16 l.ambiguous ++ bytes16 l.overspeed

end TrackingLoop

/-! ## Commands -/

/-- The message at the head of SI → TL taken off the path. -/
def State.takeSiTl (s : State) (rest : List SiTlMsg) : State := { s with si := { s.si with toTl := rest } }

/-- The request at the head of CU → TL taken off the path. -/
def State.takeCuTl (s : State) (rest : List Request) : State := { s with cu := { s.cu with toTl := rest } }

/-- The request at the head of SU → TL taken off the path. -/
def State.takeSuTl (s : State) (rest : List Request) : State := { s with su := { s.su with toTl := rest } }

/-- FRAME_MESSAGE (R44). -/
def execFrameMessage (s : State) : Out :=
  s.running fun s =>
    match s.si.toTl with
    | .frame k sine cosine usable stamp :: rest =>
      { s.takeSiTl rest with tl := s.tl.takeFrame s.bank k sine cosine usable stamp }
    | _ => s

/-- STALE_MESSAGE (R45). -/
def execStaleMessage (s : State) : Out :=
  s.running fun s =>
    match s.si.toTl with
    | .stale :: rest => { s.takeSiTl rest with tl := s.tl.takeStale s.bank }
    | _ => s

/-- COUNTERS_AT_LOOP: a passed-on READ_COUNTERS or COUNTERS_CLEAR (R30, R31, R55). -/
def execCountersAtLoop (s : State) : Out :=
  s.running fun s =>
    match s.si.toTl with
    | .readCounters p tag rejected duplicate gap :: rest =>
      { s.takeSiTl rest with
        tl := s.tl.answer p tag .ok (TrackingLoop.countersPayload rejected duplicate gap s.tl.loop) }
    | .countersClear p tag :: rest =>
      { s.takeSiTl rest with
        tl := { s.tl with loop := { s.tl.loop with ambiguous := 0, overspeed := 0 } }.answer p tag .ok [] }
    | _ => s

/-- START (R50). -/
def execStart (s : State) : Out :=
  s.running fun s =>
    match s.cu.toTl with
    | ⟨p, tag, .start⟩ :: rest => { s.takeCuTl rest with tl := s.tl.start s.bank p tag }
    | _ => s

/-- HALT (R51). -/
def execHalt (s : State) : Out :=
  s.running fun s =>
    match s.cu.toTl with
    | ⟨p, tag, .halt⟩ :: rest => { s.takeCuTl rest with tl := s.tl.halt s.bank p tag }
    | _ => s

/-- RELOCK (R52). -/
def execRelock (s : State) : Out :=
  s.running fun s =>
    match s.cu.toTl with
    | ⟨p, tag, .relock⟩ :: rest => { s.takeCuTl rest with tl := s.tl.relock s.bank p tag }
    | _ => s

/-- READ_ANGLE (R53). -/
def execReadAngle (s : State) : Out :=
  s.running fun s =>
    match s.su.toTl with
    | ⟨p, tag, .readAngle⟩ :: rest =>
      { s.takeSuTl rest with tl := s.tl.answer p tag .ok (TrackingLoop.anglePayload s.bank s.tl.loop) }
    | _ => s

/-- READ_LOOP (R54). -/
def execReadLoop (s : State) : Out :=
  s.running fun s =>
    match s.su.toTl with
    | ⟨p, tag, .readLoop⟩ :: rest =>
      { s.takeSuTl rest with tl := s.tl.answer p tag .ok (TrackingLoop.loopPayload s.bank s.tl.loop) }
    | _ => s

end Sys2Proof.Machine
end

