-- ==== Sys2Proof/Machine/TriggerTable.lean ====
section
/-! DEFINITION. The Trigger Table as the controllers book and manage its entries (chapter 4): the requests, the purge,
the release and line owner messages. Its firing is in Firing.lean. -/

namespace Sys2Proof.Machine

namespace TriggerTable

/-- TT's response put on its path to the caller's slot (R190). -/
def answer (t : TriggerTable) (p : Port) (tag : Byte) (st : Status) (payload : List Byte) : TriggerTable :=
  { t with toHp := t.toHp.push p ⟨st, tag, payload⟩ }

/-- Entry i replaced. -/
def setEntry (t : TriggerTable) (i : EntryIndex) (e : Entry) : TriggerTable :=
  { t with entries := t.entries.set i e }

/-- A message to NU for an action that notifies; nothing for one that does not. -/
def tellNu (t : TriggerTable) (a : Action) (m : TtNuMsg) : TriggerTable :=
  if a.notifies then { t with toNu := t.toNu ++ [m] } else t

/-- A message to LU about the line an action names; nothing for an action that names none. -/
def tellLu (t : TriggerTable) (a : Action) (m : Line → TtLuMsg) : TriggerTable :=
  match a.line? with
  | some l => { t with toLu := t.toLu ++ [m l] }
  | none => t

/-- An entry is held by port p. -/
def heldBy (p : Port) (e : Entry) : Bool :=
  match e with
  | some b => b.owner == p
  | none => false

/-- The number of entries of port p that are not FREE (R77). -/
def count (t : TriggerTable) (p : Port) : Nat := t.entries.toList.countP (heldBy p)

/-- The FREE entry with the lowest index (R78). -/
def lowestFree (t : TriggerTable) : Option EntryIndex :=
  (List.finRange 64).find? (fun i => (t.entries[i]).isNone)

/-! ## BOOK -/

/-- The booking a BOOK of port p makes (R78). -/
def newBooking (p : Port) (serial : Word) (a : BookArgs) : Booking where
  state := .armed
  owner := p
  serial := serial
  tag := a.tag
  angle := a.angle
  direction := a.direction
  action := a.action
  mode := a.mode
  confidence := a.confidence
  firedTotal := 0
  lastFire := none

/-- The caller holds the line its action names, by TT's copy of line ownership (R76). -/
def holdsLine (t : TriggerTable) (p : Port) (a : Action) : Bool :=
  match a.line? with
  | some l => t.lineOwner.get l == some p
  | none => true

/-- The entry taken, the serial counter advanced, LU told, and OK answered (R78). -/
def bookAt (t : TriggerTable) (i : EntryIndex) (p : Port) (tag : Byte) (a : BookArgs) : TriggerTable :=
  let t' := { t.setEntry i (some (newBooking p t.serial a)) with serial := t.serial + 1 }
  (t'.tellLu a.action (fun l => .referenceAdded l p)).answer p tag .ok ([byteOf i.val] ++ bytes16 t.serial)

/-- BOOK: arguments, line, quota, FREE entry, in that order (R75 to R78). -/
def book (bank : Bank) (t : TriggerTable) (p : Port) (tag : Byte) (args : Except Nat BookArgs) : TriggerTable :=
  match args with
  | .error n => t.answer p tag .badArgument [byteOf n]
  | .ok a =>
    if !t.holdsLine p a.action then t.answer p tag .lineNotHeld []
    else if bank.quota.get p ≤ t.count p then t.answer p tag .quotaReached [byteOf (bank.quota.get p)]
    else match t.lowestFree with
      | none => t.answer p tag .tableFull []
      | some i => t.bookAt i p tag a

/-! ## Requests that name one booking -/

/-- The identification checks of R74: index, then booking, then owner. -/
def identify (t : TriggerTable) (p : Port) (index : Byte) (serial : Word) :
    Except (Status × List Byte) (EntryIndex × Booking) :=
  match indexOf index with
  | none => .error (.badArgument, [1])
  | some i =>
    match t.entries[i] with
    | none => .error (.noEntry, [])
    | some b =>
      if b.serial ≠ serial then .error (.noEntry, [])
      else if b.owner ≠ p then .error (.notOwner, [])
      else .ok (i, b)

/-- The named values of an AMEND put into a booking; a remaining belongs to a REARM booking only (R81). -/
def amended (b : Booking) (a : AmendArgs) : Booking where
  __ := b
  angle := a.angle.getD b.angle
  direction := a.direction.getD b.direction
  tag := a.tag.getD b.tag
  mode := match b.mode with
    | .once => .once
    | .rearm d r => .rearm d (a.remaining.getD r)

/-- AMEND: arguments, identification, SPENT, REMAINING of a ONCE entry (R80, R81). -/
def amend (t : TriggerTable) (p : Port) (tag : Byte) (index : Byte) (serial : Word) (args : Except Nat AmendArgs) :
    TriggerTable :=
  match args with
  | .error n => t.answer p tag .badArgument [byteOf n]
  | .ok a =>
    match t.identify p index serial with
    | .error (st, payload) => t.answer p tag st payload
    | .ok (i, b) =>
      if b.state = .spent then t.answer p tag .entrySpent []
      else if a.remaining.isSome ∧ b.mode = .once then t.answer p tag .badArgument [7]
      else (t.setEntry i (some (amended b a))).answer p tag .ok ([index] ++ bytes16 serial)

/-- CANCEL (R82). -/
def cancel (t : TriggerTable) (p : Port) (tag : Byte) (index : Byte) (serial : Word) : TriggerTable :=
  match t.identify p index serial with
  | .error (st, payload) => t.answer p tag st payload
  | .ok (i, b) =>
    (((t.setEntry i none).tellNu b.action (.drop b.owner i b.serial)).tellLu b.action
      (fun l => .referenceRemoved l b.owner)).answer p tag .ok []

/-- SUSPEND (R83). -/
def suspend (t : TriggerTable) (p : Port) (tag : Byte) (index : Byte) (serial : Word) : TriggerTable :=
  match t.identify p index serial with
  | .error (st, payload) => t.answer p tag st payload
  | .ok (i, b) =>
    match b.state with
    | .armed => (t.setEntry i (some { b with state := .suspended .armed })).answer p tag .ok []
    | .recovering => (t.setEntry i (some { b with state := .suspended .recovering })).answer p tag .ok []
    | .suspended _ | .spent => t.answer p tag .wrongState [b.state.byte]

/-- The state a resume state stands for. -/
def resumed : ResumeState → BookingState
  | .armed => .armed
  | .recovering => .recovering

/-- RESUME (R84). -/
def resume (t : TriggerTable) (p : Port) (tag : Byte) (index : Byte) (serial : Word) : TriggerTable :=
  match t.identify p index serial with
  | .error (st, payload) => t.answer p tag st payload
  | .ok (i, b) =>
    match b.state with
    | .suspended r => (t.setEntry i (some { b with state := resumed r })).answer p tag .ok []
    | .armed | .recovering | .spent => t.answer p tag .wrongState [b.state.byte]

/-- READ_ENTRY (R85). -/
def readEntry (t : TriggerTable) (p : Port) (tag : Byte) (index : Byte) : TriggerTable :=
  match indexOf index with
  | none => t.answer p tag .badArgument [1]
  | some i => t.answer p tag .ok (entryRecord t.entries[i])

/-- LIST_OWN (R86). -/
def listOwn (t : TriggerTable) (p : Port) (tag : Byte) : TriggerTable :=
  t.answer p tag .ok (bytes64 (ownMap (t.entries.toList.map (heldBy p))))

/-! ## Messages -/

/-- A purge of port p (R92). -/
def purge (t : TriggerTable) (p : Port) : TriggerTable where
  __ := t
  entries := t.entries.map (fun e => if heldBy p e then none else e)
  toLu := t.toLu ++ [.referencesPurged p]
  toNu := t.toNu ++ [.purgeMark p]
  toSu := t.toSu ++ [p]

/-- A release message (R90). -/
def release (t : TriggerTable) (r : Release) : TriggerTable :=
  match t.entries[r.index] with
  | some b =>
    if b.state = .spent ∧ b.serial = r.serial then
      (t.setEntry r.index none).tellLu b.action (fun l => .referenceRemoved l b.owner)
    else t
  | none => t

end TriggerTable

/-! ## Commands -/

/-- The message at the head of SU → TT taken off the path. -/
def State.takeSuTt (s : State) (rest : List SuTtMsg) : State := { s with su := { s.su with toTt := rest } }

/-- BOOK (R73, R75 to R78). -/
def execBook (s : State) : Out :=
  s.running fun s =>
    match s.su.toTt with
    | .request ⟨p, tag, .book angle dir act line mode dist rem conf t⟩ :: rest =>
      { s.takeSuTt rest with tt := s.tt.book s.bank p tag (bookArgs angle dir act line mode dist rem conf t) }
    | _ => s

/-- AMEND (R80, R81). -/
def execAmend (s : State) : Out :=
  s.running fun s =>
    match s.su.toTt with
    | .request ⟨p, tag, .amend index serial changes angle dir t rem⟩ :: rest =>
      { s.takeSuTt rest with tt := s.tt.amend p tag index serial (amendArgs changes angle dir t rem) }
    | _ => s

/-- CANCEL (R82). -/
def execCancel (s : State) : Out :=
  s.running fun s =>
    match s.su.toTt with
    | .request ⟨p, tag, .cancel index serial⟩ :: rest =>
      { s.takeSuTt rest with tt := s.tt.cancel p tag index serial }
    | _ => s

/-- SUSPEND (R83). -/
def execSuspend (s : State) : Out :=
  s.running fun s =>
    match s.su.toTt with
    | .request ⟨p, tag, .suspend index serial⟩ :: rest =>
      { s.takeSuTt rest with tt := s.tt.suspend p tag index serial }
    | _ => s

/-- RESUME (R84). -/
def execResume (s : State) : Out :=
  s.running fun s =>
    match s.su.toTt with
    | .request ⟨p, tag, .resume index serial⟩ :: rest =>
      { s.takeSuTt rest with tt := s.tt.resume p tag index serial }
    | _ => s

/-- READ_ENTRY (R85). -/
def execReadEntry (s : State) : Out :=
  s.running fun s =>
    match s.su.toTt with
    | .request ⟨p, tag, .readEntry index⟩ :: rest => { s.takeSuTt rest with tt := s.tt.readEntry p tag index }
    | _ => s

/-- LIST_OWN (R86). -/
def execListOwn (s : State) : Out :=
  s.running fun s =>
    match s.su.toTt with
    | .request ⟨p, tag, .listOwn⟩ :: rest => { s.takeSuTt rest with tt := s.tt.listOwn p tag }
    | _ => s

/-- PURGE_AT_TT (R92). -/
def execPurgeAtTt (s : State) : Out :=
  s.running fun s =>
    match s.su.toTt with
    | .purge p :: rest => { s.takeSuTt rest with tt := s.tt.purge p }
    | _ => s

/-- RELEASE_MESSAGE (R90). -/
def execReleaseMessage (s : State) : Out :=
  s.running fun s =>
    match s.nu.toTt with
    | r :: rest => { s with nu := { s.nu with toTt := rest }, tt := s.tt.release r }
    | [] => s

/-- LINE_OWNER_MESSAGE (R87). -/
def execLineOwnerMessage (s : State) : Out :=
  s.running fun s =>
    match s.lu.toTt with
    | m :: rest =>
      { s with
        lu := { s.lu with toTt := rest }
        tt := { s.tt with lineOwner := s.tt.lineOwner.set m.line m.owner } }
    | [] => s

end Sys2Proof.Machine
end

