-- ==== Sys2Proof/Machine/Firing.lean ====
section
/-! DEFINITION. Crossing evaluation and firing (chapter 5): what a step report does to the trigger table. -/

namespace Sys2Proof.Machine

/-! ## The crossing interval and the qualifiers -/

/-- The path length L of a step report; no path where σ = 0 (R96). -/
def StepReport.pathLength (r : StepReport) : Nat :=
  match r.sign with
  | .pos => (r.newAngle - r.oldAngle).toNat
  | .neg => (r.oldAngle - r.newAngle).toNat
  | .zero => 0

/-- The path distance of an angle x (R96). -/
def StepReport.pathDistance (r : StepReport) (x : Word) : Nat :=
  match r.sign with
  | .pos => (x - r.oldAngle).toNat
  | .neg => (r.oldAngle - x).toNat
  | .zero => 0

/-- An angle is crossed when its path distance lies in 1 to L (R96). -/
def StepReport.crosses (r : StepReport) (x : Word) : Bool :=
  1 ≤ r.pathDistance x && r.pathDistance x ≤ r.pathLength

/-- The direction qualifier (R98). -/
def Direction.admits (d : Direction) (σ : Sign) : Bool :=
  match d, σ with
  | .fwd, .pos => true
  | .rev, .neg => true
  | .both, .pos => true
  | .both, .neg => true
  | .fwd, .neg => false
  | .rev, .pos => false
  | .fwd, .zero => false
  | .rev, .zero => false
  | .both, .zero => false

/-- The confidence qualifier (R99). -/
def Confidence.admits (c : Confidence) (st : StepState) : Bool :=
  match st with
  | .track => true
  | .coast => c == .trackOrCoast

/-- A booking fires on a report: ARMED, crossed, and admitted by direction, state and ambiguity flag (R95 to R100). -/
def Booking.firesOn (b : Booking) (r : StepReport) : Bool :=
  !r.ambiguous && b.state == .armed && r.crosses b.angle && b.direction.admits r.sign && b.confidence.admits r.state

/-- The direction of passage of a report (R104). -/
def StepReport.passage (r : StepReport) : Passage :=
  match r.sign with
  | .neg => .rev
  | .pos | .zero => .fwd

/-- The circular distance of two angles (R106). -/
def circularDistance (x y : Word) : Nat := min (x - y).toNat (y - x).toNat

/-! ## One firing -/

/-- The mode after a firing, or none when the firing was the booking's last (R105). -/
def Mode.afterFiring : Mode → Option Mode
  | .once => none
  | .rearm _ (.finite 1) => none
  | .rearm d (.finite n) => some (.rearm d (.finite (n - 1)))
  | .rearm d .unlimited => some (.rearm d .unlimited)

/-- The booking's record after a firing (R102). -/
def Booking.counted (b : Booking) (stamp : Word) : Booking where
  __ := b
  firedTotal := satAdd16 b.firedTotal 1
  lastFire := some ⟨b.angle, stamp⟩

/-- The entry after a firing: RECOVERING, SPENT, or FREE (R105). -/
def Booking.afterFiring (b : Booking) (stamp : Word) : Entry :=
  match b.mode.afterFiring with
  | some m => some { b.counted stamp with state := .recovering, mode := m }
  | none => if b.action.notifies then some { b.counted stamp with state := .spent } else none

/-- The fire report of a firing (R104). -/
def Booking.fireReport (b : Booking) (i : EntryIndex) (r : StepReport) : FireReport where
  port := b.owner
  index := i
  serial := b.serial
  tag := b.tag
  angle := b.angle
  passage := r.passage
  stamp := r.stamp
  state := r.state
  final := b.mode.afterFiring.isNone

namespace TriggerTable

/-- Entry i, holding booking b, fires: pulse request, fire report, next state, and the reference removed of an entry
the firing leaves FREE (R102 to R105). -/
def fire (r : StepReport) (t : TriggerTable) (i : EntryIndex) (b : Booking) : TriggerTable :=
  let t := t.tellLu b.action (fun l => .pulse l b.owner)
  let t := t.tellNu b.action (.fire (b.fireReport i r))
  let t := t.setEntry i (b.afterFiring r.stamp)
  match b.afterFiring r.stamp with
  | some _ => t
  | none => t.tellLu b.action (fun l => .referenceRemoved l b.owner)

/-! ## The three phases of a step report -/

/-- One entry found in the evaluation phase: its path distance, its index and its booking. -/
structure Candidate where
  distance : Nat
  index : EntryIndex
  booking : Booking
deriving DecidableEq, Repr

/-- The candidate an entry makes, if it fires on the report. -/
def candidateAt (t : TriggerTable) (r : StepReport) (i : EntryIndex) : Option Candidate :=
  match t.entries[i] with
  | some b => if b.firesOn r then some ⟨r.pathDistance b.angle, i, b⟩ else none
  | none => none

/-- The evaluation phase, in index order (R95). -/
def evaluate (t : TriggerTable) (r : StepReport) : List Candidate :=
  (List.finRange 64).filterMap (t.candidateAt r)

/-- A candidate put in its place in a list in path order: behind every candidate at its distance or nearer (R101). -/
def insertInOrder (c : Candidate) : List Candidate → List Candidate
  | [] => [c]
  | d :: ds => if c.distance < d.distance then c :: d :: ds else d :: insertInOrder c ds

/-- The candidates in path order, those at one distance in index order (R101). -/
def pathOrder (cs : List Candidate) : List Candidate := cs.foldl (fun l c => insertInOrder c l) []

/-- The firing phase (R95, R101). -/
def fireAll (r : StepReport) (t : TriggerTable) (cs : List Candidate) : TriggerTable :=
  cs.foldl (fun t c => t.fire r c.index c.booking) t

/-- A RECOVERING booking at least its re-arm distance from the new angle becomes ARMED (R106). -/
def rearmed (newAngle : Word) (e : Entry) : Entry :=
  match e with
  | none => none
  | some b =>
    match b.state, b.mode with
    | .recovering, .rearm d _ =>
      if d.toNat ≤ circularDistance b.angle newAngle then some { b with state := .armed } else some b
    | _, _ => some b

/-- The re-arming phase (R106). -/
def rearm (t : TriggerTable) (newAngle : Word) : TriggerTable :=
  { t with entries := t.entries.map (rearmed newAngle) }

/-- A step report: evaluation, firing, re-arming (R95). -/
def takeReport (t : TriggerTable) (r : StepReport) : TriggerTable :=
  (t.fireAll r (pathOrder (t.evaluate r))).rearm r.newAngle

end TriggerTable

/-- STEP_REPORT (R95). -/
def execStepReport (s : State) : Out :=
  s.running fun s =>
    match s.tl.toTt with
    | r :: rest => { s with tl := { s.tl with toTt := rest }, tt := s.tt.takeReport r }
    | [] => s

end Sys2Proof.Machine
end

