-- ==== Sys2Proof/Machine/NoticeUnit.lean ====
section
/-! DEFINITION. The Notice Unit (chapter 6): posting, the owed list and the summary-owed flag, the reports NU takes,
NOTICE_POP, releases and drops, the opening and closing of a port, the attention lines and the queue lengths. -/

namespace Sys2Proof.Machine

/-! ## One port record -/

namespace NoticePort

/-- A notice put at the tail of the queue with the next sequence number (R115, R116). -/
def post (r : NoticePort) (n : Notice) : NoticePort :=
  { r with queue := r.queue ++ [⟨r.seq, n⟩], seq := r.seq + 1 }

/-- The queue has room for a notice (R116). -/
def hasRoom (r : NoticePort) : Bool := decide (r.queue.length < Config.queueDepth)

/-- The queue, the owed list and the summary-owed flag emptied (R128, R129). -/
def emptied (r : NoticePort) : NoticePort := { r with queue := [], owed := [], summaryOwed := false }

end NoticePort

/-- The FIRED notice, or the owed item, a fire report makes (R117). -/
def FireReport.fired (f : FireReport) : Fired :=
  ⟨f.index, f.serial, f.tag, 1, f.angle, f.passage, f.stamp, f.state, f.final⟩

/-- A report merged into the owed item of its index; a report of another serial replaces the item (R117). -/
def Fired.merge (item report : Fired) : Fired :=
  if item.serial = report.serial then
    { item with
      count := satInc8 item.count, angle := report.angle, passage := report.passage
      stamp := report.stamp, state := report.state, final := item.final || report.final }
  else report

/-- A report kept in the owed list, which stands in index order with at most one item for an index (R113, R117). -/
def owe (report : Fired) : List Fired → List Fired
  | [] => [report]
  | item :: rest =>
    if report.index < item.index then report :: item :: rest
    else if report.index = item.index then item.merge report :: rest
    else item :: owe report rest

namespace NoticeUnit

/-- NU's response put on its path to the caller's slot (R190). -/
def answer (n : NoticeUnit) (p : Port) (tag : Byte) (st : Status) (payload : List Byte) : NoticeUnit :=
  { n with toHp := n.toHp.push p (.response ⟨st, tag, payload⟩) }

/-- Port p's record replaced at the end of a happening: the attention line follows the queue (R130), and a change of
the queue length is sent to HPp (R131). -/
def commit (n : NoticeUnit) (p : Port) (r : NoticePort) : NoticeUnit where
  __ := n
  ports := n.ports.set p { r with atnLow := !r.queue.isEmpty }
  toHp := if r.queue.length = (n.ports.get p).queue.length then n.toHp
    else n.toHp.push p (.queueLength r.queue.length)

/-- Port p's record replaced in a happening that leaves its queue as it was. -/
def setPort (n : NoticeUnit) (p : Port) (r : NoticePort) : NoticeUnit := { n with ports := n.ports.set p r }

/-- A release message, sent at each posting of a FIRED notice whose final flag is set (R126). -/
def releaseIfFinal (n : NoticeUnit) (f : Fired) : NoticeUnit :=
  if f.final then { n with toTt := n.toTt ++ [⟨f.index, f.serial⟩] } else n

/-- A done report for port p sent to SU (R129). -/
def done (n : NoticeUnit) (p : Port) : NoticeUnit := { n with toSu := n.toSu ++ [p] }

/-- A notice other than FIRED given to port p: posted where the queue has room, owed as a summary where it is full,
discarded where the port is closed (R116, R118, R119). -/
def giveTo (n : NoticeUnit) (p : Port) (x : Notice) : NoticeUnit :=
  let r := n.ports.get p
  if !r.opened then n
  else if r.hasRoom then n.commit p (r.post x)
  else n.setPort p { r with summaryOwed := true }

/-- A notice given to each port whose subscription set holds its kind, in turn (R119). -/
def giveSubscribed (n : NoticeUnit) (kind : Subscriptions → Bool) (x : Notice) : NoticeUnit :=
  Port.inOrder.foldl (fun n p => if kind (n.ports.get p).subs then n.giveTo p x else n) n

/-! ## Reports (R117 to R123) -/

/-- A health report (R119). -/
def takeHealth (n : NoticeUnit) (r : HealthReport) : NoticeUnit :=
  { n with copies := { n.copies with active := r.active, lastStamp := r.stamp } }.giveSubscribed
    Subscriptions.health (.health r.active r.changed r.stamp)

/-- A loop report (R120). -/
def takeLoop (n : NoticeUnit) (old new : LoopState) (cause : LoopCause) (stamp : Word) (step : GainStep) : NoticeUnit :=
  { n with copies := { n.copies with loopState := new, step := step, lastStamp := stamp } }.giveSubscribed
    Subscriptions.loop (.loop old new cause stamp)

/-- An overspeed report (R121). -/
def takeOverspeed (n : NoticeUnit) (velocity : Int) (stamp : Word) : NoticeUnit :=
  { n with copies := { n.copies with lastStamp := stamp } }.giveSubscribed
    Subscriptions.overspeed (.overspeed velocity stamp)

/-- A lease report (R122). -/
def takeLease (n : NoticeUnit) (holder : Option Port) (grant : Bool) : NoticeUnit :=
  let n := { n with copies := { n.copies with holder := holder } }
  match holder, grant with
  | some p, true => n.giveTo p .leaseGranted
  | some _, false => n
  | none, _ => n

/-- An activation report (R123). -/
def takeActivation (n : NoticeUnit) (bank : BankId) : NoticeUnit :=
  { n with copies := { n.copies with bank := bank } }.giveSubscribed
    Subscriptions.activated (.activated bank n.copies.lastStamp)

/-- A fire report (R117). A report for a closed port updates the last stamp alone (R114, R116). -/
def takeFire (n : NoticeUnit) (f : FireReport) : NoticeUnit :=
  let n := { n with copies := { n.copies with lastStamp := f.stamp } }
  let r := n.ports.get f.port
  if !r.opened then n
  else if r.hasRoom then (n.commit f.port (r.post (.fired f.fired))).releaseIfFinal f.fired
  else n.setPort f.port { r with owed := owe f.fired r.owed }

/-- A drop message (R127). -/
def takeDrop (n : NoticeUnit) (p : Port) (index : EntryIndex) (serial : Word) : NoticeUnit :=
  let r := n.ports.get p
  if r.opened then
    n.setPort p { r with owed := r.owed.filter (fun f => !(f.index == index && f.serial == serial)) }
  else n

/-! ## NOTICE_POP (R124, R125) -/

/-- The SUMMARY built for port p from NU's copies (R125). -/
def summaryFor (n : NoticeUnit) (p : Port) : Notice :=
  .summary n.copies.loopState n.copies.step n.copies.active (n.copies.holder == some p) n.copies.bank n.copies.lastStamp

/-- NOTICE_POP against the caller's port record (R124). -/
def pop (n : NoticeUnit) (p : Port) (tag : Byte) : NoticeUnit :=
  let r := n.ports.get p
  match r.queue with
  | [] => n.answer p tag .queueEmpty []
  | head :: rest =>
    let r := { r with queue := rest }
    if r.summaryOwed then
      (n.commit p { r.post (n.summaryFor p) with summaryOwed := false }).answer p tag .ok head.record
    else match r.owed with
      | f :: fs =>
        ((n.commit p { r.post (.fired f) with owed := fs }).releaseIfFinal f).answer p tag .ok head.record
      | [] => (n.commit p r).answer p tag .ok head.record

/-! ## Opening and closing a port (R128, R129) -/

/-- Open p (R128). -/
def openPort (n : NoticeUnit) (p : Port) (subs : Subscriptions) : NoticeUnit :=
  n.commit p { (n.ports.get p).emptied with
    seq := 0, subs := subs, opened := true, markAwaited := false, markTaken := false }

/-- Close p (R129). -/
def closePort (n : NoticeUnit) (p : Port) : NoticeUnit :=
  let r := { (n.ports.get p).emptied with opened := false, subs := Subscriptions.none }
  if r.markTaken then (n.commit p { r with markTaken := false }).done p
  else n.commit p { r with markAwaited := true }

/-- A purge mark for p (R129). A mark for a closed port with none awaited has no effect stated and changes nothing. -/
def takePurgeMark (n : NoticeUnit) (p : Port) : NoticeUnit :=
  let r := n.ports.get p
  if r.opened then n.setPort p { r with markTaken := true }
  else if r.markAwaited then (n.setPort p { r with markAwaited := false }).done p
  else n

end NoticeUnit

/-! ## Commands -/

/-- The message at the head of TL → NU taken off the path. -/
def State.takeTlNu (s : State) (rest : List TlNuMsg) : State := { s with tl := { s.tl with toNu := rest } }

/-- The message at the head of TT → NU taken off the path. -/
def State.takeTtNu (s : State) (rest : List TtNuMsg) : State := { s with tt := { s.tt with toNu := rest } }

/-- The message at the head of CU → NU taken off the path. -/
def State.takeCuNu (s : State) (rest : List CuNuMsg) : State := { s with cu := { s.cu with toNu := rest } }

/-- The message at the head of SU → NU taken off the path. -/
def State.takeSuNu (s : State) (rest : List SuNuMsg) : State := { s with su := { s.su with toNu := rest } }

/-- HEALTH_REPORT (R119). -/
def execHealthReport (s : State) : Out :=
  s.running fun s =>
    match s.si.toNu with
    | r :: rest => { s with si := { s.si with toNu := rest }, nu := s.nu.takeHealth r }
    | [] => s

/-- LOOP_REPORT (R120). -/
def execLoopReport (s : State) : Out :=
  s.running fun s =>
    match s.tl.toNu with
    | .loop old new cause stamp step :: rest =>
      { s.takeTlNu rest with nu := s.nu.takeLoop old new cause stamp step }
    | _ => s

/-- OVERSPEED_REPORT (R121). -/
def execOverspeedReport (s : State) : Out :=
  s.running fun s =>
    match s.tl.toNu with
    | .overspeed velocity stamp :: rest => { s.takeTlNu rest with nu := s.nu.takeOverspeed velocity stamp }
    | _ => s

/-- FIRE_REPORT (R117). -/
def execFireReport (s : State) : Out :=
  s.running fun s =>
    match s.tt.toNu with
    | .fire f :: rest => { s.takeTtNu rest with nu := s.nu.takeFire f }
    | _ => s

/-- DROP_MESSAGE (R127). -/
def execDropMessage (s : State) : Out :=
  s.running fun s =>
    match s.tt.toNu with
    | .drop p index serial :: rest => { s.takeTtNu rest with nu := s.nu.takeDrop p index serial }
    | _ => s

/-- PURGE_MARK (R129). -/
def execPurgeMark (s : State) : Out :=
  s.running fun s =>
    match s.tt.toNu with
    | .purgeMark p :: rest => { s.takeTtNu rest with nu := s.nu.takePurgeMark p }
    | _ => s

/-- LEASE_REPORT (R122). -/
def execLeaseReport (s : State) : Out :=
  s.running fun s =>
    match s.cu.toNu with
    | .lease holder grant :: rest => { s.takeCuNu rest with nu := s.nu.takeLease holder grant }
    | _ => s

/-- ACTIVATION_REPORT (R123). -/
def execActivationReport (s : State) : Out :=
  s.running fun s =>
    match s.cu.toNu with
    | .activation bank :: rest => { s.takeCuNu rest with nu := s.nu.takeActivation bank }
    | _ => s

/-- OPEN_P_AT_NU (R128). -/
def execOpenAtNu (s : State) : Out :=
  s.running fun s =>
    match s.su.toNu with
    | .openPort p subs :: rest => { s.takeSuNu rest with nu := s.nu.openPort p subs }
    | _ => s

/-- CLOSE_P_AT_NU (R129). -/
def execCloseAtNu (s : State) : Out :=
  s.running fun s =>
    match s.su.toNu with
    | .closePort p :: rest => { s.takeSuNu rest with nu := s.nu.closePort p }
    | _ => s

/-- NOTICE_POP (R124). -/
def execNoticePop (s : State) : Out :=
  s.running fun s =>
    match s.su.toNu with
    | .request ⟨p, tag, .noticePop⟩ :: rest => { s.takeSuNu rest with nu := s.nu.pop p tag }
    | _ => s

end Sys2Proof.Machine
end

