-- ==== Sys2Proof/Machine/SessionUnit.lean ====
section
/-! DEFINITION. The Session Unit (chapter 8): the session gate, the session timer, the routing of requests, joining and
leaving, and teardown. -/

namespace Sys2Proof.Machine

/-! ## One session record -/

namespace Session

/-- The session gate: whether the present state admits a request, and the refusal where it does not (R147). -/
def gate (r : Session) (b : ReqBody) : Option Status :=
  match r.state, b with
  | .opened, _ => none
  | .closed, .join _ _ => none
  | .closed, .hostStatus => none
  | .closed, .nop => none
  | .closed, _ => some .notJoined
  | .closing, .hostStatus => none
  | .closing, .nop => none
  | .closing, _ => some .closing

/-- The session timer started at `now` with a timeout in ms; a timeout of 0 leaves it stopped (R149, R198). -/
def timerFrom (now : Nat) (timeout : Word) : Option Nat :=
  if timeout = 0 then none else some (timerEnd now (1000 * timeout.toNat))

/-- A request taken from an OPEN session restarts the timer; in CLOSED and CLOSING it stays stopped (R149). -/
def heard (now : Nat) (r : Session) : Session :=
  match r.state with
  | .opened => { r with timer := timerFrom now r.timeout }
  | .closed | .closing => r

/-- The next epoch: 255 is followed by 1, so that 0 is never given to a session (R146). -/
def nextEpoch (e : BitVec 8) : BitVec 8 := if e = 255 then 1 else e + 1

/-- The record of a session as it opens (R151). -/
def joined (now : Nat) (timeout : Word) (r : Session) : Session :=
  { r with
    state := .opened, epoch := nextEpoch r.epoch, timeout := timeout, timer := timerFrom now timeout, held := none }

/-- The record of a session as its teardown begins (R156). -/
def torn (cause : CloseCause) (r : Session) : Session :=
  { r with state := .closing, lastCause := cause, timer := none, awaited := ⟨true, true, true, true, true⟩ }

end Session

/-- Whether a block's done report is still awaited; TL and SU send none (R157). -/
def AwaitedDone.has (a : AwaitedDone) : Block → Bool
  | .tt => a.tt
  | .nu => a.nu
  | .si => a.si
  | .cu => a.cu
  | .lu => a.lu
  | .tl => false
  | .su => false

/-- A block removed from the awaited set (R157). -/
def AwaitedDone.without (a : AwaitedDone) : Block → AwaitedDone
  | .tt => { a with tt := false }
  | .nu => { a with nu := false }
  | .si => { a with si := false }
  | .cu => { a with cu := false }
  | .lu => { a with lu := false }
  | .tl => a
  | .su => a

/-- The owner of a request (R148). -/
def ReqBody.owner : ReqBody → Block
  | .readHealth | .ackHealth | .readCounters => .si
  | .readAngle | .readLoop => .tl
  | .book _ _ _ _ _ _ _ _ _ | .amend _ _ _ _ _ _ _ | .cancel _ _ | .suspend _ _ | .resume _ _ | .readEntry _
  | .listOwn => .tt
  | .noticePop => .nu
  | .lineClaim _ _ _ | .lineRelease _ | .linePulse _ | .lineStatus _ => .lu
  | .leaseTake _ | .leaseDrop | .leaseCancel | .paramWrite _ _ | .paramCopy | .paramRead _ _ | .activate
  | .start | .halt | .relock | .countersClear => .cu
  | .join _ _ | .leave | .ping | .hostStatus | .nop => .su

namespace SessionUnit

/-- SU's response put on its path to the caller's slot (R190). -/
def answer (u : SessionUnit) (p : Port) (tag : Byte) (st : Status) (payload : List Byte) : SessionUnit :=
  { u with toHp := u.toHp.push p (.response ⟨st, tag, payload⟩) }

/-- Port p's record replaced. -/
def setSession (u : SessionUnit) (p : Port) (r : Session) : SessionUnit := { u with sessions := u.sessions.set p r }

/-- An admitted request put on the path to its owner (R148). A request SU answers itself goes nowhere. -/
def forward (u : SessionUnit) (r : Request) : SessionUnit :=
  match r.body.owner with
  | .si => { u with toSi := u.toSi ++ [.request r] }
  | .tl => { u with toTl := u.toTl ++ [r] }
  | .tt => { u with toTt := u.toTt ++ [.request r] }
  | .nu => { u with toNu := u.toNu ++ [.request r] }
  | .lu => { u with toLu := u.toLu ++ [.request r] }
  | .cu => { u with toCu := u.toCu ++ [.request r] }
  | .su => u

/-- A session opens: epoch message, record, open messages, response OK with the epoch and the port (R151). -/
def openSession (u : SessionUnit) (now : Nat) (p : Port) (timeout : Word) (subs : Subscriptions) (tag : Byte) :
    SessionUnit :=
  let r := (u.sessions.get p).joined now timeout
  let u := { u with toHp := u.toHp.push p (.epoch r.epoch) }
  let u := u.setSession p r
  { u with toNu := u.toNu ++ [SuNuMsg.openPort p subs], toSi := u.toSi ++ [SuSiMsg.openPort p] }.answer p tag .ok
    [r.epoch, p.byte]

/-- A teardown begins: record, purge and close messages (R156). -/
def teardown (u : SessionUnit) (p : Port) (cause : CloseCause) : SessionUnit :=
  let u := u.setSession p ((u.sessions.get p).torn cause)
  { u with
    toTt := u.toTt ++ [.purge p], toNu := u.toNu ++ [.closePort p]
    toSi := u.toSi ++ [.closePort p], toCu := u.toCu ++ [.purge p] }

/-- The first thing SU does with a request it takes: an OPEN session's timer is restarted (R149). -/
def hear (u : SessionUnit) (now : Nat) (p : Port) : SessionUnit :=
  u.setSession p ((u.sessions.get p).heard now)

/-- JOIN admitted from a CLOSED or an OPEN session (R151, R152). -/
def join (u : SessionUnit) (now : Nat) (p : Port) (tag : Byte) (timeout : Word) (subs : Byte) : SessionUnit :=
  match joinArgs timeout subs with
  | .error n => u.answer p tag .badArgument [byteOf n]
  | .ok s =>
    match (u.sessions.get p).state with
    | .opened =>
      (u.setSession p { u.sessions.get p with held := some ⟨timeout, s, tag⟩ }).teardown p .rejoined
    | .closed | .closing => u.openSession now p timeout s tag

/-- The payload of PING: session state and timeout (R154). -/
def pingPayload (r : Session) : List Byte := [r.state.byte] ++ bytes16 r.timeout

/-- The payload of HOST_STATUS: session state, epoch, last close cause (R155). -/
def statusPayload (r : Session) : List Byte := [r.state.byte, r.epoch, r.lastCause.byte]

/-- A request SU takes: the gate's refusal, or the timer and the effect given (R147, R149). -/
def judge (u : SessionUnit) (now : Nat) (r : Request) (effect : SessionUnit → SessionUnit) : SessionUnit :=
  match (u.sessions.get r.port).gate r.body with
  | some st => u.answer r.port r.tag st []
  | none => effect (u.hear now r.port)

/-- The closing step of a teardown whose last done report has come (R157): CLOSED, or the rejoin's new session. -/
def finish (u : SessionUnit) (now : Nat) (p : Port) : SessionUnit :=
  let u := u.setSession p { u.sessions.get p with state := .closed }
  match (u.sessions.get p).held with
  | none => u
  | some j => u.openSession now p j.timeout j.subs j.tag

/-- A done report of `block` for port p (R157). -/
def takeDone (u : SessionUnit) (now : Nat) (block : Block) (p : Port) : SessionUnit :=
  let r := u.sessions.get p
  if r.state = .closing ∧ r.awaited.has block then
    let awaited := r.awaited.without block
    let u := u.setSession p { r with awaited := awaited }
    let u := if block = .tt then { u with toLu := u.toLu ++ [.releaseAll p] } else u
    if awaited = AwaitedDone.none then u.finish now p else u
  else u

end SessionUnit

/-! ## Commands -/

/-- A host port's record replaced. -/
def State.setHp (s : State) (p : Port) (h : HostPort) : State := { s with hp := s.hp.set p h }

/-- The request at the head of HPp → SU taken off the path. -/
def State.takeHpSu (s : State) (p : Port) (rest : List Request) : State :=
  s.setHp p { s.hp.get p with toSu := rest }

/-- FORWARD_REQUEST: SU takes the request at the head of HPp → SU. It refuses what the gate does not let in, and
forwards an admitted request to its owner (R147 to R149). An admitted request that SU answers itself is taken by the
commands JOIN, LEAVE, PING, NOP and HOST_STATUS, and not by this one. -/
def execForwardRequest (p : Port) (s : State) : Out :=
  s.running fun s =>
    match (s.hp.get p).toSu with
    | r :: rest =>
      if r.body.owner = .su ∧ ((s.su.sessions.get r.port).gate r.body).isNone then s
      else { s.takeHpSu p rest with su := s.su.judge s.now r (·.forward r) }
    | [] => s

/-- JOIN (R151, R152). -/
def execJoin (p : Port) (s : State) : Out :=
  s.running fun s =>
    match (s.hp.get p).toSu with
    | ⟨q, tag, .join timeout subs⟩ :: rest =>
      { s.takeHpSu p rest with
        su := s.su.judge s.now ⟨q, tag, .join timeout subs⟩ (·.join s.now q tag timeout subs) }
    | _ => s

/-- LEAVE (R153). -/
def execLeave (p : Port) (s : State) : Out :=
  s.running fun s =>
    match (s.hp.get p).toSu with
    | ⟨q, tag, .leave⟩ :: rest =>
      { s.takeHpSu p rest with
        su := s.su.judge s.now ⟨q, tag, .leave⟩ (fun u => (u.teardown q .left).answer q tag .ok []) }
    | _ => s

/-- PING (R154). -/
def execPing (p : Port) (s : State) : Out :=
  s.running fun s =>
    match (s.hp.get p).toSu with
    | ⟨q, tag, .ping⟩ :: rest =>
      { s.takeHpSu p rest with
        su := s.su.judge s.now ⟨q, tag, .ping⟩
          (fun u => u.answer q tag .ok (SessionUnit.pingPayload (u.sessions.get q))) }
    | _ => s

/-- NOP (R154). -/
def execNop (p : Port) (s : State) : Out :=
  s.running fun s =>
    match (s.hp.get p).toSu with
    | ⟨q, tag, .nop⟩ :: rest =>
      { s.takeHpSu p rest with su := s.su.judge s.now ⟨q, tag, .nop⟩ (·.answer q tag .ok []) }
    | _ => s

/-- HOST_STATUS (R155). -/
def execHostStatus (p : Port) (s : State) : Out :=
  s.running fun s =>
    match (s.hp.get p).toSu with
    | ⟨q, tag, .hostStatus⟩ :: rest =>
      { s.takeHpSu p rest with
        su := s.su.judge s.now ⟨q, tag, .hostStatus⟩
          (fun u => u.answer q tag .ok (SessionUnit.statusPayload (u.sessions.get q))) }
    | _ => s

/-- SESSION_TIMER_EXPIRY: port p's session timer reaches its expiry while the session is OPEN (R150, R198). -/
def execSessionTimerExpiry (p : Port) (s : State) : Out :=
  s.running fun s =>
    match (s.su.sessions.get p).runningTimer with
    | some t => s.expireAt t fun s => { s with su := s.su.teardown p .expired }
    | none => s

/-- A done report taken off its path by SU (R157). -/
def State.takeDone (s : State) (block : Block) (p : Port) : State :=
  { s with su := s.su.takeDone s.now block p }

/-- DONE_REPORT: SU takes the done report at the head of a block's path (R157). TL and SU send none. -/
def execDoneReport (block : Block) (s : State) : Out :=
  s.running fun s =>
    match block with
    | .si => match s.si.toSu with
      | p :: rest => { s with si := { s.si with toSu := rest } }.takeDone .si p
      | [] => s
    | .tt => match s.tt.toSu with
      | p :: rest => { s with tt := { s.tt with toSu := rest } }.takeDone .tt p
      | [] => s
    | .nu => match s.nu.toSu with
      | p :: rest => { s with nu := { s.nu with toSu := rest } }.takeDone .nu p
      | [] => s
    | .lu => match s.lu.toSu with
      | p :: rest => { s with lu := { s.lu with toSu := rest } }.takeDone .lu p
      | [] => s
    | .cu => match s.cu.toSu with
      | p :: rest => { s with cu := { s.cu with toSu := rest } }.takeDone .cu p
      | [] => s
    | .tl => s
    | .su => s

end Sys2Proof.Machine
end

