-- ==== Sys2Proof/Machine/HostPort.lean ====
section
/-! DEFINITION. The Host Ports (chapter 10): the transaction, delivery, the framing of a request, the response slot, and
the header values HP holds. -/

namespace Sys2Proof.Machine

/-! ## The transaction -/

namespace Transaction

/-- One rising edge of SCKn: the level joins the byte in reception, most significant bit first, and every eighth bit
completes a byte. The first bytes are kept up to the longest request frame; every bit is counted (R182). -/
def clock (t : Transaction) (level : Bool) : Transaction :=
  let shifted := t.partialByte.shiftConcat level
  if (t.bitCount + 1) % 8 = 0 then
    { t with
      bitCount := t.bitCount + 1
      received := if t.received.length < Config.longestFrame then t.received ++ [shifted] else t.received
      partialByte := 0 }
  else { t with bitCount := t.bitCount + 1, partialByte := shifted }

/-- The whole bytes clocked, kept or not (R186). -/
def wholeBytes (t : Transaction) : Nat := t.bitCount / 8

/-- The tag echo of HP's own error responses (R187). -/
def errorTag (t : Transaction) : Byte :=
  match t.received with
  | _ :: tag :: _ => tag
  | [_] => 0
  | [] => 0

/-- What the request of a transaction of an IDLE or READY slot comes to, by the checks of R186 in their order: ignored
(none), an error response, or a good frame's tag and request. -/
def outcome (t : Transaction) : Option (Except Response (Byte × ReqBody)) :=
  if t.wholeBytes = 0 then none
  else if t.bitCount % 8 ≠ 0 then some (.error ⟨.frameError, t.errorTag, []⟩)
  else match t.received with
    | [] => none
    | code :: rest =>
      match argBytes code with
      | none => some (.error ⟨.unknownRequest, t.errorTag, []⟩)
      | some n =>
        if t.wholeBytes < n + 3 then some (.error ⟨.frameError, t.errorTag, []⟩)
        else if sum8 (t.received.take (n + 3)) ≠ 0 then some (.error ⟨.frameError, t.errorTag, []⟩)
        else match rest with
          | [] => none
          | tag :: args => (ReqBody.ofBytes code (args.take n)).map (fun b => .ok (tag, b))

end Transaction

/-- The level SDOn shows, where it is driven. -/
def SdoDrive.level : SdoDrive → List Bool
  | .highZ => []
  | .driven l => [l]

namespace HostPort

/-- The outgoing image for the present slot state: EMPTY marker, held response or BUSY marker, with the epoch and the
queue length held (R183, R191, R192). -/
def outgoing (h : HostPort) : List Byte :=
  match h.slot with
  | .idle => (Response.marker .empty).image h.epoch h.queueLength
  | .pending => (Response.marker .busy).image h.epoch h.queueLength
  | .ready r => r.image h.epoch h.queueLength

/-- The kind of a transaction that opens now (R188). -/
def kindNow (h : HostPort) : TransactionKind :=
  match h.slot with
  | .idle => .idle
  | .pending => .pending
  | .ready _ => .ready

/-- CSn_N falls: a transaction opens, and SDOn is driven with the first bit of its image (R182, R183). -/
def fall (h : HostPort) : HostPort :=
  { h with
    transaction := some ⟨h.kindNow, h.outgoing, 0, [], 0⟩, sdo := .driven (sdoBit h.outgoing 0), sdoShown := [] }

/-- One rising edge of SCKn and the falling edge that follows it: the level of SDIn joins the received bytes, the level of
SDOn is what the controller finds at the rising edge, and SDOn moves to the next bit of the image, or of the fill bytes
of FFh after it. With no transaction in progress the edges are ignored (R182, R183; notes/assumptions/10.md). -/
def clock (h : HostPort) (level : Bool) : HostPort :=
  match h.transaction with
  | none => h
  | some t =>
    { h with
      transaction := some (t.clock level)
      sdo := .driven (sdoBit t.image (t.bitCount + 1))
      sdoShown := h.sdoShown ++ h.sdo.level }

/-- CSn_N rises on transaction t of port p: SDOn returns to high impedance, and for an IDLE or READY slot the delivery
and the request are taken. A transaction of a PENDING slot is discarded (R182, R184, R186 to R189). -/
def rise (h : HostPort) (p : Port) (t : Transaction) : HostPort :=
  let closed := { h with transaction := none, sdo := .highZ }
  match t.kind with
  | .pending => closed
  | .idle | .ready =>
    match t.outcome with
    | none => closed
    | some (.error r) => { closed with slot := .ready r }
    | some (.ok (tag, b)) => { closed with slot := .pending, toSu := h.toSu ++ [⟨p, tag, b⟩] }

/-- An owner's response becomes the held response, and the slot becomes READY (R190). -/
def hold (h : HostPort) (r : Response) : HostPort := { h with slot := .ready r }

end HostPort

/-! ## Commands -/

/-- CSN_N_FALLS (R182). -/
def execCsFalls (p : Port) (s : State) : Out :=
  s.running fun s => s.setHp p (s.hp.get p).fall

/-- CSN_N_RISES, with the levels clocked since CSn_N fell: the edges of SCKn shift bits in and out, and then the rising edge
of CSn_N is taken. A rising edge with no transaction in progress, as after a reset that ended with CSn_N low, is
ignored, and so is what was clocked before it (R181, R182). -/
def execCsRises (p : Port) (levels : List Bool) (s : State) : Out :=
  s.running fun s =>
    let h := levels.foldl HostPort.clock (s.hp.get p)
    match h.transaction with
    | some t => s.setHp p (h.rise p t)
    | none => s

/-- RESPONSE_WRITE: HPp takes the response at the head of a block's path to it (R190). -/
def execResponseWrite (block : Block) (p : Port) (s : State) : Out :=
  s.running fun s =>
    match block with
    | .si => match s.si.toHp.get p with
      | r :: rest => { s with si := { s.si with toHp := s.si.toHp.set p rest } }.setHp p ((s.hp.get p).hold r)
      | [] => s
    | .tl => match s.tl.toHp.get p with
      | r :: rest => { s with tl := { s.tl with toHp := s.tl.toHp.set p rest } }.setHp p ((s.hp.get p).hold r)
      | [] => s
    | .tt => match s.tt.toHp.get p with
      | r :: rest => { s with tt := { s.tt with toHp := s.tt.toHp.set p rest } }.setHp p ((s.hp.get p).hold r)
      | [] => s
    | .nu => match s.nu.toHp.get p with
      | .response r :: rest =>
        { s with nu := { s.nu with toHp := s.nu.toHp.set p rest } }.setHp p ((s.hp.get p).hold r)
      | _ => s
    | .lu => match s.lu.toHp.get p with
      | r :: rest => { s with lu := { s.lu with toHp := s.lu.toHp.set p rest } }.setHp p ((s.hp.get p).hold r)
      | [] => s
    | .su => match s.su.toHp.get p with
      | .response r :: rest =>
        { s with su := { s.su with toHp := s.su.toHp.set p rest } }.setHp p ((s.hp.get p).hold r)
      | _ => s
    | .cu => match s.cu.toHp.get p with
      | r :: rest => { s with cu := { s.cu with toHp := s.cu.toHp.set p rest } }.setHp p ((s.hp.get p).hold r)
      | [] => s

/-- EPOCH_MESSAGE: HPp takes the epoch message at the head of SU → HPp (R191). -/
def execEpochMessage (p : Port) (s : State) : Out :=
  s.running fun s =>
    match s.su.toHp.get p with
    | .epoch e :: rest =>
      { s with su := { s.su with toHp := s.su.toHp.set p rest } }.setHp p { s.hp.get p with epoch := e }
    | _ => s

/-- QUEUE_LENGTH_MESSAGE: HPp takes the queue length message at the head of NU → HPp (R191). -/
def execQueueLengthMessage (p : Port) (s : State) : Out :=
  s.running fun s =>
    match s.nu.toHp.get p with
    | .queueLength n :: rest =>
      { s with nu := { s.nu with toHp := s.nu.toHp.set p rest } }.setHp p { s.hp.get p with queueLength := n }
    | _ => s

end Sys2Proof.Machine
end

