-- ==== Sys2Proof/Machine/LineUnit.lean ====
section
/-! DEFINITION. The Line Unit (chapter 7): claims and releases, references, pulses, the teardown exchange, and what is
driven on the trigger pins. -/

namespace Sys2Proof.Machine

/-! ## One line -/

/-- The owner of a line; none in UNOWNED (R132). -/
def LineState.owner : LineState → Option Port
  | .unowned => none
  | .idle p => some p
  | .pulsing p _ => some p

/-- What is driven on a pin, from the line's state and polarity (R133). -/
def driveOf (st : LineState) (pol : Polarity) : PinDrive :=
  match st, pol with
  | .unowned, _ => .undriven
  | .idle _, .activeHigh => .low
  | .idle _, .activeLow => .high
  | .pulsing _ _, .activeHigh => .high
  | .pulsing _ _, .activeLow => .low

namespace LineRecord

/-- A line put into a state with a polarity, its pin driven accordingly in the same happening (R133). -/
def enter (l : LineRecord) (st : LineState) (pol : Polarity) : LineRecord :=
  { l with state := st, polarity := pol, pin := driveOf st pol }

/-- A strike for the line's owner: an IDLE line starts a pulse, a PULSING one is extended and counts the merge (R139). -/
def strike (now : Nat) (l : LineRecord) : LineRecord :=
  match l.state with
  | .unowned => l
  | .idle p => l.enter (.pulsing p (now + l.width.toNat)) l.polarity
  | .pulsing p _ => { l.enter (.pulsing p (now + l.width.toNat)) l.polarity with merged := satAdd16 l.merged 1 }

/-- A release: UNOWNED, the pin undriven, the timer stopped; polarity, width and merged count stay (R138). -/
def release (l : LineRecord) : LineRecord := l.enter .unowned l.polarity

end LineRecord

namespace LineUnit

/-- LU's response put on its path to the caller's slot (R190). -/
def answer (u : LineUnit) (p : Port) (tag : Byte) (st : Status) (payload : List Byte) : LineUnit :=
  { u with toHp := u.toHp.push p ⟨st, tag, payload⟩ }

/-- One line's record replaced. -/
def setLine (u : LineUnit) (l : Line) (r : LineRecord) : LineUnit := { u with lines := u.lines.set l r }

/-- A line owner message sent to TT (R136). -/
def tellOwner (u : LineUnit) (l : Line) (o : Option Port) : LineUnit := { u with toTt := u.toTt ++ [⟨l, o⟩] }

/-- A done report for port p sent to SU (R142). -/
def done (u : LineUnit) (p : Port) : LineUnit := { u with toSu := u.toSu ++ [p] }

/-! ## Requests (R134 to R140, R144) -/

/-- LINE_CLAIM of line l (R135). -/
def claim (u : LineUnit) (p : Port) (tag : Byte) (l : Line) (pol : Polarity) (width : BitVec 8) : LineUnit :=
  let r := u.lines.get l
  match r.state with
  | .unowned =>
    ((u.setLine l { r.enter (.idle p) pol with width := width, merged := 0 }).tellOwner l (some p)).answer p tag .ok
      [(LineState.idle p).byte]
  | .idle o =>
    if o = p then
      (u.setLine l { r.enter (.idle p) pol with width := width }).answer p tag .ok [(LineState.idle p).byte]
    else u.answer p tag .lineHeld [o.byte]
  | .pulsing o e =>
    if o = p then
      if pol = r.polarity then
        (u.setLine l { r with width := width }).answer p tag .ok [(LineState.pulsing o e).byte]
      else u.answer p tag .wrongState []
    else u.answer p tag .lineHeld [o.byte]

/-- LINE_CLAIM: line, polarity and width judged in argument order, then the claim (R134, R135). -/
def takeClaim (u : LineUnit) (p : Port) (tag : Byte) (line polarity width : Byte) : LineUnit :=
  match lineOf line with
  | none => u.answer p tag .badArgument [1]
  | some l =>
    match claimArgs polarity width with
    | .error n => u.answer p tag .badArgument [byteOf n]
    | .ok pol => u.claim p tag l pol width

/-- LINE_RELEASE: owner, references, then the release (R138). -/
def takeRelease (u : LineUnit) (p : Port) (tag : Byte) (line : Byte) : LineUnit :=
  match lineOf line with
  | none => u.answer p tag .badArgument [1]
  | some l =>
    let r := u.lines.get l
    if r.state.owner ≠ some p then u.answer p tag .lineNotHeld []
    else if 0 < r.refs.get p then u.answer p tag .lineInUse [byteOf (r.refs.get p)]
    else ((u.setLine l r.release).tellOwner l none).answer p tag .ok []

/-- LINE_PULSE (R140). -/
def takePulse (u : LineUnit) (now : Nat) (p : Port) (tag : Byte) (line : Byte) : LineUnit :=
  match lineOf line with
  | none => u.answer p tag .badArgument [1]
  | some l =>
    let r := u.lines.get l
    if r.state.owner ≠ some p then u.answer p tag .lineNotHeld []
    else (u.setLine l (r.strike now)).answer p tag .ok [(r.strike now).state.byte]

/-- The payload of LINE_STATUS (R144, section 11.3). -/
def statusPayload (r : LineRecord) : List Byte :=
  [portByte r.state.owner, r.polarity.byte, r.width, r.state.byte] ++ bytes16 r.merged

/-- LINE_STATUS (R144). -/
def takeStatus (u : LineUnit) (p : Port) (tag : Byte) (line : Byte) : LineUnit :=
  match lineOf line with
  | none => u.answer p tag .badArgument [1]
  | some l => u.answer p tag .ok (statusPayload (u.lines.get l))

/-! ## Messages from TT (R137, R139, R142) -/

/-- A pulse request: driven for the line's owner, discarded for any other port (R139). -/
def takePulseRequest (u : LineUnit) (now : Nat) (l : Line) (p : Port) : LineUnit :=
  let r := u.lines.get l
  if r.state.owner = some p then u.setLine l (r.strike now) else u

/-- A reference added (R137). -/
def addReference (u : LineUnit) (l : Line) (p : Port) : LineUnit :=
  let r := u.lines.get l
  u.setLine l { r with refs := r.refs.set p (r.refs.get p + 1) }

/-- A reference removed; a count of 0 stays at 0 (R137). -/
def removeReference (u : LineUnit) (l : Line) (p : Port) : LineUnit :=
  let r := u.lines.get l
  u.setLine l { r with refs := r.refs.set p (r.refs.get p - 1) }

/-- Port p's reference count of a line set to 0 (R137). -/
def withoutReferences (r : LineRecord) (p : Port) : LineRecord := { r with refs := r.refs.set p 0 }

/-- References purged for port p: the counts fall to 0, and the message takes part in the teardown exchange (R142).
A second one before the release-all leaves the mark as it is. -/
def takeReferencesPurged (u : LineUnit) (p : Port) : LineUnit :=
  let u := { u with
    lines := ⟨withoutReferences u.lines.trg0 p, withoutReferences u.lines.trg1 p, withoutReferences u.lines.trg2 p,
      withoutReferences u.lines.trg3 p⟩ }
  match u.marks.get p with
  | .releaseAllTaken => { u with marks := u.marks.set p .clear }.done p
  | .clear | .referencesPurgedTaken => { u with marks := u.marks.set p .referencesPurgedTaken }

/-- One line released if port p owns it, with its line owner message (R142). -/
def releaseOwned (p : Port) (u : LineUnit) (l : Line) : LineUnit :=
  let r := u.lines.get l
  if r.state.owner = some p then (u.setLine l r.release).tellOwner l none else u

/-- Release-all for port p: every line it owns, in line order, then its part of the teardown exchange (R142). -/
def takeReleaseAll (u : LineUnit) (p : Port) : LineUnit :=
  let u := Line.inOrder.foldl (releaseOwned p) u
  match u.marks.get p with
  | .referencesPurgedTaken => { u with marks := u.marks.set p .clear }.done p
  | .clear | .releaseAllTaken => { u with marks := u.marks.set p .releaseAllTaken }

/-- The end of a line's pulse (R141). -/
def endPulse (u : LineUnit) (l : Line) (owner : Port) : LineUnit :=
  let r := u.lines.get l
  u.setLine l (r.enter (.idle owner) r.polarity)

end LineUnit

/-! ## Commands -/

/-- The message at the head of SU → LU taken off the path. -/
def State.takeSuLu (s : State) (rest : List SuLuMsg) : State := { s with su := { s.su with toLu := rest } }

/-- The message at the head of TT → LU taken off the path. -/
def State.takeTtLu (s : State) (rest : List TtLuMsg) : State := { s with tt := { s.tt with toLu := rest } }

/-- LINE_CLAIM (R135). -/
def execLineClaim (s : State) : Out :=
  s.running fun s =>
    match s.su.toLu with
    | .request ⟨p, tag, .lineClaim line polarity width⟩ :: rest =>
      { s.takeSuLu rest with lu := s.lu.takeClaim p tag line polarity width }
    | _ => s

/-- LINE_RELEASE (R138). -/
def execLineRelease (s : State) : Out :=
  s.running fun s =>
    match s.su.toLu with
    | .request ⟨p, tag, .lineRelease line⟩ :: rest => { s.takeSuLu rest with lu := s.lu.takeRelease p tag line }
    | _ => s

/-- LINE_PULSE (R140). -/
def execLinePulse (s : State) : Out :=
  s.running fun s =>
    match s.su.toLu with
    | .request ⟨p, tag, .linePulse line⟩ :: rest => { s.takeSuLu rest with lu := s.lu.takePulse s.now p tag line }
    | _ => s

/-- LINE_STATUS (R144). -/
def execLineStatus (s : State) : Out :=
  s.running fun s =>
    match s.su.toLu with
    | .request ⟨p, tag, .lineStatus line⟩ :: rest => { s.takeSuLu rest with lu := s.lu.takeStatus p tag line }
    | _ => s

/-- RELEASE_ALL (R142). -/
def execReleaseAll (s : State) : Out :=
  s.running fun s =>
    match s.su.toLu with
    | .releaseAll p :: rest => { s.takeSuLu rest with lu := s.lu.takeReleaseAll p }
    | _ => s

/-- PULSE_REQUEST (R139). -/
def execPulseRequest (s : State) : Out :=
  s.running fun s =>
    match s.tt.toLu with
    | .pulse l p :: rest => { s.takeTtLu rest with lu := s.lu.takePulseRequest s.now l p }
    | _ => s

/-- REFERENCE_ADDED (R137). -/
def execReferenceAdded (s : State) : Out :=
  s.running fun s =>
    match s.tt.toLu with
    | .referenceAdded l p :: rest => { s.takeTtLu rest with lu := s.lu.addReference l p }
    | _ => s

/-- REFERENCE_REMOVED (R137). -/
def execReferenceRemoved (s : State) : Out :=
  s.running fun s =>
    match s.tt.toLu with
    | .referenceRemoved l p :: rest => { s.takeTtLu rest with lu := s.lu.removeReference l p }
    | _ => s

/-- REFERENCES_PURGED (R137, R142). -/
def execReferencesPurged (s : State) : Out :=
  s.running fun s =>
    match s.tt.toLu with
    | .referencesPurged p :: rest => { s.takeTtLu rest with lu := s.lu.takeReferencesPurged p }
    | _ => s

/-- PULSE_END: the pulse timer of a PULSING line reaches its end and LU takes the expiry (R141, R198). -/
def execPulseEnd (line : Line) (s : State) : Out :=
  s.running fun s =>
    match (s.lu.lines.get line).state with
    | .pulsing p e => s.expireAt (e + 1) fun s => { s with lu := s.lu.endPulse line p }
    | .unowned => s
    | .idle _ => s

end Sys2Proof.Machine
end

