-- ==== Sys2Proof/Machine/Flags.lean ====
section
/-! DEFINITION. The judgements that set and clear the health causes: the persistence rule, FRONT_END's own rule, and
the conditions of LOW_AMPLITUDE and SATURATED (section 1.5). -/

namespace Sys2Proof.Machine

/-- One more on a run counter, compared with the persistence P: the run is complete, or it goes on (R16, R22). -/
def runOn (run : BitVec 4) (p : Nat) : Option (BitVec 4) :=
  if p ≤ run.toNat + 1 then none else some (run + 1)

/-- The persistence rule of LOW_AMPLITUDE and SATURATED for one accepted frame (R16): `cond` says whether the frame
meets the cause's condition. The result is the cause's state and its run counter. -/
def persist (cond active : Bool) (run : BitVec 4) (p : Nat) : Bool × BitVec 4 :=
  if cond = active then (active, 0)
  else match runOn run p with
    | none => (cond, 0)
    | some r => (active, r)

/-- FRONT_END's rule for one accepted frame (R19). -/
def persistFrontEnd (fault active : Bool) (run : BitVec 4) (p : Nat) : Bool × BitVec 4 :=
  if fault then (true, 0)
  else if active then
    match runOn run p with
    | none => (false, 0)
    | some r => (true, r)
  else (false, 0)

/-- The run counter of STALE increased by one, saturating at 15 (R12). -/
def staleRunInc (run : BitVec 4) : BitVec 4 := if run = 15 then 15 else run + 1

/-- A value limited to −2048 to +2047 (R14). -/
def limit12 (x : Int) : Int := max (-2048) (min 2047 x)

/-- The corrected sine (R14). -/
def correctSine (b : Bank) (sine : Int) : Int := limit12 (sine - b.offS)

/-- The corrected cosine: the product divided by 1024 and rounded toward zero, then limited (R14). -/
def correctCosine (b : Bank) (cosine : Int) : Int := limit12 (((cosine - b.offC) * b.gainC).tdiv 1024)

/-- The magnitude square of the corrected pair (R15). -/
def magnitudeSquare (s c : Int) : Int := s * s + c * c

/-- The LOW_AMPLITUDE condition (R17). -/
def lowCondition (b : Bank) (m : Int) : Bool := m < (b.aLow : Int) * b.aLow

/-- A raw sample at full scale (R18). -/
def atFullScale (x : Int) : Bool := x == -2048 || x == 2047

/-- The SATURATED condition, on the raw samples, FE_CLIP and the magnitude square (R18). -/
def saturatedCondition (b : Bank) (f : SampleFrame) (m : Int) : Bool :=
  atFullScale f.sine || atFullScale f.cosine || f.feClip || decide ((b.aHigh : Int) * b.aHigh < m)

end Sys2Proof.Machine
end

