-- ==== Sys2Proof/Machine/SampleIntake.lean ====
section
/-! DEFINITION. Sample Intake (chapter 1): frame reception and checks, the stale timer, health, the intake counters
and the requests SI answers or passes on. -/

namespace Sys2Proof.Machine

namespace SampleIntake

/-- SI's response put on its path to the caller's slot (R190). -/
def answer (si : SampleIntake) (r : Request) (st : Status) (payload : List Byte) : SampleIntake :=
  { si with toHp := si.toHp.push r.port ⟨st, r.tag, payload⟩ }

/-- Causes that became active added to the sticky set of every open port (R25). -/
def stick (si : SampleIntake) (newly : CauseSet) : SampleIntake :=
  { si with sticky := ⟨si.sticky.p0.map (·.union newly), si.sticky.p1.map (·.union newly),
      si.sticky.p2.map (·.union newly), si.sticky.p3.map (·.union newly)⟩ }

/-- A health report, sent when the set of active causes is not what it was before the happening (R24). -/
def reportHealth (si : SampleIntake) (before : CauseSet) : SampleIntake :=
  if si.active = before then si
  else { si with toNu := si.toNu ++ [⟨si.active, si.active.differing before, si.stamp⟩] }

/-- The gap k of a frame with sequence number n that is not a duplicate (R8). -/
def gapOf (baseline : Option (BitVec 4)) (n : BitVec 4) : BitVec 4 :=
  match baseline with
  | none => 0
  | some b => n - b - 1

/-- The causes and run counters after an accepted frame: STALE first, then the other three (R9, R16 to R20). -/
def judge (b : Bank) (f : SampleFrame) (active : CauseSet) (runs : RunCounters) : CauseSet × RunCounters :=
  let m := magnitudeSquare (correctSine b f.sine) (correctCosine b f.cosine)
  let fe := persistFrontEnd f.feFault active.frontEnd runs.frontEnd b.persistence
  let lo := persist (lowCondition b m) active.lowAmplitude runs.lowAmplitude b.persistence
  let sa := persist (saturatedCondition b f m) active.saturated runs.saturated b.persistence
  (⟨fe.1, lo.1, sa.1, false⟩, ⟨fe.2, lo.2, sa.2, 0⟩)

/-- An accepted frame (R9), with the active bank b. -/
def accept (b : Bank) (now : Nat) (f : SampleFrame) (si : SampleIntake) : SampleIntake :=
  let k := gapOf si.baseline f.seq
  let judged := judge b f si.active si.runs
  let stamp := si.stamp + k.setWidth 16 + 1
  let si' := { si with
    baseline := some f.seq
    stamp := stamp
    gap := satAdd16 si.gap k.toNat
    staleTimer := some (timerEnd now b.staleTimeout)
    active := judged.1
    runs := judged.2
    toTl := si.toTl ++
      [SiTlMsg.frame k (correctSine b f.sine) (correctCosine b f.cosine) judged.1.good stamp] }
  (si'.stick (judged.1.diff si.active)).reportHealth si.active

/-- A frame that passed its checks is accepted or is a duplicate (R8). -/
def classify (b : Bank) (now : Nat) (f : SampleFrame) (si : SampleIntake) : SampleIntake :=
  if si.baseline = some f.seq then { si with duplicate := satAdd16 si.duplicate 1 }
  else si.accept b now f

/-- A frame passes its checks with 32 clocks and an even number of ones in each parity group (R6). -/
def frameGood (r : Reception) : Bool :=
  r.clocks == Config.frameClocks && evenOnes (parityAGroup r.shifter) && evenOnes (parityBGroup r.shifter)

/-- SI takes a frame with its clock count and the bits shifted: rejected, or classified (R5, R6). -/
def takeFrame (b : Bank) (now : Nat) (r : Reception) (si : SampleIntake) : SampleIntake :=
  if frameGood r then si.classify b now (SampleFrame.ofBits r.shifter)
  else { si with rejected := satAdd16 si.rejected 1 }

/-- An expiry of the stale timer (R12). -/
def expire (b : Bank) (now : Nat) (si : SampleIntake) : SampleIntake :=
  let counted := { si with
    runs := { si.runs with stale := staleRunInc si.runs.stale }
    staleTimer := some (timerEnd now b.staleTimeout) }
  if si.active.stale then counted
  else
    let active := { si.active with stale := true }
    ({ counted with baseline := none, active := active, toTl := si.toTl ++ [SiTlMsg.stale] }.stick
      (active.diff si.active)).reportHealth si.active

/-- The payload of READ_HEALTH (R27, section 11.3). A port recorded as closed has no sticky set and reads as empty. -/
def healthPayload (si : SampleIntake) (p : Port) : List Byte :=
  [si.active.byte, si.runs.frontEnd.setWidth 8, si.runs.lowAmplitude.setWidth 8, si.runs.saturated.setWidth 8,
    si.runs.stale.setWidth 8, ((si.sticky.get p).getD CauseSet.empty).byte] ++ bytes16 si.stamp

/-- ACK_HEALTH: the inactive causes leave the caller's sticky set (R28). -/
def acknowledge (si : SampleIntake) (p : Port) : SampleIntake :=
  { si with sticky := si.sticky.set p ((si.sticky.get p).map (·.inter si.active)) }

end SampleIntake

/-- One rising edge of SCLK_S while SFRM_S is high: the level joins the shifter until 32 bits are held, and the clock
count stops at 33 (R5). -/
def Reception.clock (r : Reception) (level : Bool) : Reception where
  inFrame := r.inFrame
  shifter := if r.clocks < Config.frameClocks then r.shifter.shiftConcat level else r.shifter
  clocks := min Config.clockCountStop (r.clocks + 1)

/-- SFRM_S_RISES: a frame opens, and SI clears its receive shifter and its clock count (R5). -/
def execSfrmRises (s : State) : Out :=
  s.running fun s => { s with si := { s.si with reception := ⟨true, 0, 0⟩ } }

/-- SAMPLE_FRAME: the falling edge of SFRM_S, with the levels clocked since it rose. A falling edge with no frame open,
as after a reset that ended with SFRM_S high, is ignored (R5). -/
def execSampleFrame (levels : List Bool) (s : State) : Out :=
  s.running fun s =>
    if s.si.reception.inFrame then
      let r := levels.foldl Reception.clock s.si.reception
      { s with si := { s.si with reception := { r with inFrame := false } }.takeFrame s.bank s.now r }
    else s

/-- STALE_TIMER_EXPIRY: the stale timer reaches its expiry and SI takes it (R12, R198). -/
def execStaleTimerExpiry (s : State) : Out :=
  s.running fun s =>
    match s.si.staleTimer with
    | none => s
    | some t => s.expireAt t fun s => { s with si := s.si.expire s.bank s.now }

/-- The message at the head of SU → SI taken off the path. -/
def State.takeSuSi (s : State) (rest : List SuSiMsg) : State := { s with su := { s.su with toSi := rest } }

/-- OPEN_P_AT_SI: the port is recorded as open with an empty sticky set (R26). -/
def execOpenAtSi (s : State) : Out :=
  s.running fun s =>
    match s.su.toSi with
    | .openPort p :: rest =>
      { s.takeSuSi rest with si := { s.si with sticky := s.si.sticky.set p (some CauseSet.empty) } }
    | _ => s

/-- CLOSE_P_AT_SI: the sticky set is emptied, the port recorded as closed, and SU sent a done report (R26). -/
def execCloseAtSi (s : State) : Out :=
  s.running fun s =>
    match s.su.toSi with
    | .closePort p :: rest =>
      { s.takeSuSi rest with si := { s.si with sticky := s.si.sticky.set p none, toSu := s.si.toSu ++ [p] } }
    | _ => s

/-- READ_HEALTH (R27). -/
def execReadHealth (s : State) : Out :=
  s.running fun s =>
    match s.su.toSi with
    | .request ⟨p, tag, .readHealth⟩ :: rest =>
      { s.takeSuSi rest with si := s.si.answer ⟨p, tag, .readHealth⟩ .ok (s.si.healthPayload p) }
    | _ => s

/-- ACK_HEALTH (R28). -/
def execAckHealth (s : State) : Out :=
  s.running fun s =>
    match s.su.toSi with
    | .request ⟨p, tag, .ackHealth⟩ :: rest =>
      let si := s.si.acknowledge p
      { s.takeSuSi rest with
        si := si.answer ⟨p, tag, .ackHealth⟩ .ok [((si.sticky.get p).getD CauseSet.empty).byte] }
    | _ => s

/-- READ_COUNTERS: SI places its three counters into the request and passes it on to TL (R30). -/
def execReadCounters (s : State) : Out :=
  s.running fun s =>
    match s.su.toSi with
    | .request ⟨p, tag, .readCounters⟩ :: rest =>
      { s.takeSuSi rest with
        si := { s.si with
          toTl := s.si.toTl ++ [.readCounters p tag s.si.rejected s.si.duplicate s.si.gap] } }
    | _ => s

/-- COUNTERS_CLEAR: SI clears its three counters and passes the request on to TL (R31). -/
def execCountersClear (s : State) : Out :=
  s.running fun s =>
    match s.cu.toSi with
    | ⟨p, tag, .countersClear⟩ :: rest =>
      { s with
        cu := { s.cu with toSi := rest }
        si := { s.si with
          rejected := 0, duplicate := 0, gap := 0, toTl := s.si.toTl ++ [.countersClear p tag] } }
    | _ => s

end Sys2Proof.Machine
end

