-- ==== Sys2Proof/Machine/ResetClock.lean ====
section
/-! DEFINITION. Reset (R199), and what the device does when no command waits: the microsecond timebase ticks, and the
timers that have reached their expiry are taken (R198). -/

namespace Sys2Proof.Machine

/-! ## Reset -/

/-- RESET: RESET_N is found low. Every block returns to its reset values and nothing in flight survives; the timers are
stopped and the timebase is held at its present tick (R161, R198, R199). -/
def execReset (s : State) : Out := .next (State.resetValues none s.now .low s.pending)

/-- RESET_N_FOUND_HIGH: the start time of 50 µs begins to run (R199). With RESET_N not low before, nothing changes. -/
def execResetFoundHigh (s : State) : Out :=
  .next (match s.phase with
    | .low => { s with phase := .starting (s.now + Config.startTime) }
    | .starting _ => s
    | .running => s)

/-- RESET_END: the start time is over. The stale timer is restarted with 500 µs, and a frame or a transaction already in
progress is ignored, since none is held as open (R5, R11, R181, R199). -/
def execResetEnd (s : State) : Out :=
  .next (match s.phase with
    | .starting t =>
      let s := s.advanceTo t
      { s with
        phase := .running
        si := { s.si with staleTimer := some (timerEnd s.now Config.resetStaleTimeout) } }
    | .low => s
    | .running => s)

/-! ## The timebase -/

/-- A timer that runs toward tick t has reached its expiry. -/
def State.reached (s : State) (timer : Option Nat) : Bool :=
  match timer with
  | some t => t ≤ s.now
  | none => false

/-- The expiries whose tick has come, in the order the idle device takes them: the stale timer, the session timers P0 to
P3, the pulse timers TRG0 to TRG3. The manual leaves their order open; see notes/assumptions/2.md. -/
def State.dueExpiries (s : State) : List Instr :=
  (if s.reached s.si.staleTimer then [.staleTimerExpiry] else []) ++
    (Port.inOrder.filter (fun p => s.reached (s.su.sessions.get p).runningTimer)).map Instr.sessionTimerExpiry ++
    (Line.inOrder.filter (fun l => s.reached (s.lu.lines.get l).state.timer)).map Instr.pulseEnd

/-- One tick of the timebase (R198). -/
def State.tick (s : State) : State := { s with now := s.now + 1 }

/-- What the device does when no command waits. With RESET_N low the timebase is held. In the start time it ticks, and
reset ends when the start time is over. Otherwise the first due expiry is taken, and where none is due the timebase
ticks (R198, R199; a DESIGN CHOICE, notes/assumptions/2.md). -/
def idle (s : State) : Out :=
  match s.phase with
  | .low => .next s
  | .starting t => if t ≤ s.now then execResetEnd s else .next s.tick
  | .running =>
    match s.dueExpiries with
    | .staleTimerExpiry :: _ => execStaleTimerExpiry s
    | .sessionTimerExpiry p :: _ => execSessionTimerExpiry p s
    | .pulseEnd l :: _ => execPulseEnd l s
    | _ => .next s.tick

end Sys2Proof.Machine
end

