-- ==== Sys2Proof/Machine/Dispatch.lean ====
section
/-! DEFINITION. The meaning of each command: one arm for each row of spec/opcode_table.json, in the table's order. -/

namespace Sys2Proof.Machine

def exec (i : Instr) (s : State) : Host.Outcome State Fault Refusal :=
  match i with
  | .reset => Sys2Proof.Machine.execReset s
  | .resetEnd => Sys2Proof.Machine.execResetEnd s
  | .sampleFrame levels => Sys2Proof.Machine.execSampleFrame levels s
  | .staleTimerExpiry => Sys2Proof.Machine.execStaleTimerExpiry s
  | .openAtSi => Sys2Proof.Machine.execOpenAtSi s
  | .closeAtSi => Sys2Proof.Machine.execCloseAtSi s
  | .readHealth => Sys2Proof.Machine.execReadHealth s
  | .ackHealth => Sys2Proof.Machine.execAckHealth s
  | .readCounters => Sys2Proof.Machine.execReadCounters s
  | .countersClear => Sys2Proof.Machine.execCountersClear s
  | .countersAtLoop => Sys2Proof.Machine.execCountersAtLoop s
  | .frameMessage => Sys2Proof.Machine.execFrameMessage s
  | .staleMessage => Sys2Proof.Machine.execStaleMessage s
  | .start => Sys2Proof.Machine.execStart s
  | .halt => Sys2Proof.Machine.execHalt s
  | .relock => Sys2Proof.Machine.execRelock s
  | .readAngle => Sys2Proof.Machine.execReadAngle s
  | .readLoop => Sys2Proof.Machine.execReadLoop s
  | .stepReport => Sys2Proof.Machine.execStepReport s
  | .book => Sys2Proof.Machine.execBook s
  | .amend => Sys2Proof.Machine.execAmend s
  | .cancel => Sys2Proof.Machine.execCancel s
  | .suspend => Sys2Proof.Machine.execSuspend s
  | .resume => Sys2Proof.Machine.execResume s
  | .readEntry => Sys2Proof.Machine.execReadEntry s
  | .listOwn => Sys2Proof.Machine.execListOwn s
  | .purgeAtTt => Sys2Proof.Machine.execPurgeAtTt s
  | .releaseMessage => Sys2Proof.Machine.execReleaseMessage s
  | .lineOwnerMessage => Sys2Proof.Machine.execLineOwnerMessage s
  | .healthReport => Sys2Proof.Machine.execHealthReport s
  | .loopReport => Sys2Proof.Machine.execLoopReport s
  | .overspeedReport => Sys2Proof.Machine.execOverspeedReport s
  | .fireReport => Sys2Proof.Machine.execFireReport s
  | .dropMessage => Sys2Proof.Machine.execDropMessage s
  | .purgeMark => Sys2Proof.Machine.execPurgeMark s
  | .leaseReport => Sys2Proof.Machine.execLeaseReport s
  | .activationReport => Sys2Proof.Machine.execActivationReport s
  | .openAtNu => Sys2Proof.Machine.execOpenAtNu s
  | .closeAtNu => Sys2Proof.Machine.execCloseAtNu s
  | .noticePop => Sys2Proof.Machine.execNoticePop s
  | .lineClaim => Sys2Proof.Machine.execLineClaim s
  | .lineRelease => Sys2Proof.Machine.execLineRelease s
  | .linePulse => Sys2Proof.Machine.execLinePulse s
  | .lineStatus => Sys2Proof.Machine.execLineStatus s
  | .pulseRequest => Sys2Proof.Machine.execPulseRequest s
  | .referenceAdded => Sys2Proof.Machine.execReferenceAdded s
  | .referenceRemoved => Sys2Proof.Machine.execReferenceRemoved s
  | .referencesPurged => Sys2Proof.Machine.execReferencesPurged s
  | .releaseAll => Sys2Proof.Machine.execReleaseAll s
  | .pulseEnd line => Sys2Proof.Machine.execPulseEnd line s
  | .forwardRequest p => Sys2Proof.Machine.execForwardRequest p s
  | .join p => Sys2Proof.Machine.execJoin p s
  | .leave p => Sys2Proof.Machine.execLeave p s
  | .ping p => Sys2Proof.Machine.execPing p s
  | .nop p => Sys2Proof.Machine.execNop p s
  | .hostStatus p => Sys2Proof.Machine.execHostStatus p s
  | .sessionTimerExpiry p => Sys2Proof.Machine.execSessionTimerExpiry p s
  | .doneReport block => Sys2Proof.Machine.execDoneReport block s
  | .leaseTake => Sys2Proof.Machine.execLeaseTake s
  | .leaseDrop => Sys2Proof.Machine.execLeaseDrop s
  | .leaseCancel => Sys2Proof.Machine.execLeaseCancel s
  | .paramWrite => Sys2Proof.Machine.execParamWrite s
  | .paramCopy => Sys2Proof.Machine.execParamCopy s
  | .paramRead => Sys2Proof.Machine.execParamRead s
  | .activate => Sys2Proof.Machine.execActivate s
  | .leaseGatedForward => Sys2Proof.Machine.execLeaseGatedForward s
  | .purgeAtCu => Sys2Proof.Machine.execPurgeAtCu s
  | .stateMessage => Sys2Proof.Machine.execStateMessage s
  | .boundaryMessage => Sys2Proof.Machine.execBoundaryMessage s
  | .csFalls p => Sys2Proof.Machine.execCsFalls p s
  | .csRises p levels => Sys2Proof.Machine.execCsRises p levels s
  | .responseWrite block p => Sys2Proof.Machine.execResponseWrite block p s
  | .epochMessage p => Sys2Proof.Machine.execEpochMessage p s
  | .queueLengthMessage p => Sys2Proof.Machine.execQueueLengthMessage p s
  | .sfrmRises => Sys2Proof.Machine.execSfrmRises s
  | .resetFoundHigh => Sys2Proof.Machine.execResetFoundHigh s

end Sys2Proof.Machine
end

