-- ==== Sys2Proof/Machine/Step.lean ====
section
/-! DEFINITION. One step of the machine: the command at the front of the queue, or the idle device. -/

namespace Sys2Proof.Machine

/-- One step. The command at the front of the queue is taken and run with the queue's rest; on an empty queue the
device is left to its timebase and its timers (notes/assumptions/2.md). -/
def step (s : State) : Host.Outcome State Fault Refusal :=
  match s.pending with
  | c :: rest => exec c { s with pending := rest }
  | [] => idle s

/-- The command that a word spells put at the front of the queue. No row of the opcode table gives bits, so no word
spells one, and the state is answered as it is. -/
def State.withFetchWord (s : State) (nbits w : Nat) : State :=
  match decodeTableWord nbits w with
  | some c => { s with pending := c :: s.pending }
  | none => s

end Sys2Proof.Machine
end

