-- ==== Sys2Proof/Safety.lean ====
section
/-! DEFINITION. What counts as a safe run of the TW416, in the terms the claims use: for each block the conditions that
every happening keeps, with the rule each of them comes from, and the conditions that tie the holdings of a port to
its session. -/

namespace Sys2Proof.Machine

/-! ## Configuration Unit -/

/-- Every field of a bank lies within its range (R170). -/
def Bank.fit (b : Bank) : Prop := ∀ f : FieldId, f.inRange (b.field f) = true

/-- The conditions on the banks and the lease (R162, R170, R174). -/
structure ConfigUnit.Sound (c : ConfigUnit) : Prop where
  /-- Every field of both banks lies within its range at all times (R170). -/
  fit0 : c.bank0.fit
  fit1 : c.bank1.fit
  /-- The active bank passes the three cross-field checks (R174). -/
  active : c.activeBank.crossFailure = none
  /-- While an activation is pending, the standby bank stays as ACTIVATE checked it (R179). -/
  standby : c.activationPending = true → c.standbyBank.crossFailure = none
  /-- The holder is never in the wait list (R162). -/
  holder : ∀ p, c.holder = some p → p ∉ c.waiting
  /-- No port stands in the wait list twice (R162). -/
  once : c.waiting.Nodup
  /-- A free lease has nobody waiting for it (R163, R164). -/
  free : c.holder = none → c.waiting = []

/-! ## Tracking Loop -/

/-- The conditions on the loop record (R32, R34, R46, R57, R63). -/
structure LoopRecord.Sound (l : LoopRecord) : Prop where
  /-- n+ plus n− never exceeds the window position (R57). -/
  signs : l.nPlus + l.nMinus ≤ l.position
  /-- A window ends at the latest when its position reaches the largest W (R58). -/
  position : l.position < 128
  /-- The lock run lies in 0 to 8 (R63). -/
  lockRun : l.lockRun ≤ 8
  /-- The velocity stays within the largest limit of any bank (R34). -/
  velocity : l.velocity.natAbs ≤ 8191 * 256
  /-- The velocity is 0 in LOST (R46). -/
  lost : l.state = .lost → l.velocity = 0

/-! ## Sample Intake -/

/-- The conditions on the intake (R5, R7, R12, R20). -/
structure SampleIntake.Sound (i : SampleIntake) : Prop where
  /-- The baseline is none exactly while STALE is active (R7, R12, R20). -/
  baseline : i.baseline = none ↔ i.active.stale = true
  /-- The clock count stops at 33 (R5). -/
  clocks : i.reception.clocks ≤ 33

/-! ## Trigger Table -/

/-- The conditions on one booking (R69, R71, R105). -/
structure Booking.Sound (b : Booking) : Prop where
  /-- A finite remaining is 1 to 255 (R69). -/
  remaining : ∀ d n, b.mode = .rearm d (.finite n) → n ≠ 0
  /-- The last fire fields are absent until the first firing (R71). -/
  fired : b.lastFire = none ↔ b.firedTotal = 0
  /-- An entry becomes SPENT only when its final firing notifies (R105). -/
  spent : b.state = .spent → b.action.notifies = true
  /-- Only a REARM booking is RECOVERING, or will be when it is resumed (R105). -/
  recovering : b.state = .recovering ∨ b.state = .suspended .recovering → b.mode ≠ .once

/-- Every booking of the table meets its conditions. -/
def TriggerTable.Sound (t : TriggerTable) : Prop :=
  ∀ i : EntryIndex, ∀ b, t.entries[i] = some b → b.Sound

/-! ## Notice Unit -/

/-- The conditions on a port record (R113, R115, R116, R129, R130 and section 6.4). -/
structure NoticePort.Sound (r : NoticePort) : Prop where
  /-- A queue holds at most 16 notices (R113). -/
  bound : r.queue.length ≤ 16
  /-- The owed list is in index order with at most one item for an index (R113). -/
  order : r.owed.Pairwise (fun a b => a.index < b.index)
  /-- Something is owed only while the queue holds 16 notices (section 6.4). -/
  full : (r.owed ≠ [] ∨ r.summaryOwed = true) → r.queue.length = 16
  /-- The notices carry consecutive sequence numbers from head to tail (R115). -/
  numbers : ∀ i (h : i < r.queue.length), r.queue[i].seq + BitVec.ofNat 8 (r.queue.length - i) = r.seq
  /-- A closed port has an empty queue, nothing owed and no subscription (R129). -/
  closed : r.opened = false →
    r.queue = [] ∧ r.owed = [] ∧ r.summaryOwed = false ∧ r.subs = Subscriptions.none
  /-- The attention line is low exactly while the queue holds a notice (R130). -/
  attention : r.atnLow = true ↔ r.queue ≠ []

/-- Every port record meets its conditions. -/
def NoticeUnit.Sound (n : NoticeUnit) : Prop := ∀ p, (n.ports.get p).Sound

/-! ## Line Unit -/

/-- What is driven on every pin follows the line's state and polarity (R133), and an owner's width is 1 to 255 (R132). -/
def LineUnit.Sound (u : LineUnit) : Prop :=
  ∀ l, (u.lines.get l).pin = driveOf (u.lines.get l).state (u.lines.get l).polarity ∧ (u.lines.get l).width ≠ 0

/-! ## Session Unit -/

/-- The conditions on a session record (R145 to R149, R156, R157). -/
structure Session.Sound (r : Session) : Prop where
  /-- Done reports are awaited while CLOSING, and in no other state (R145, R157). -/
  awaited : r.state = .closing ↔ r.awaited ≠ AwaitedDone.none
  /-- A JOIN is held while CLOSING only (R145). -/
  held : r.held ≠ none → r.state = .closing
  /-- The session timer runs in OPEN only, unless the timeout is 0 (section 8.1). -/
  timer : (∃ t, r.timer = some t) ↔ (r.state = .opened ∧ r.timeout ≠ 0)
  /-- An epoch of 0 is never given to a session (R146). -/
  epoch : r.state ≠ .closed → r.epoch ≠ 0

/-- Every session record meets its conditions. -/
def SessionUnit.Sound (u : SessionUnit) : Prop := ∀ p, (u.sessions.get p).Sound

/-! ## Host Ports -/

/-- The conditions on a host port's record (R181, R182). -/
structure HostPort.Sound (h : HostPort) : Prop where
  /-- At most the longest request frame is kept of what is shifted in (R182). -/
  received : ∀ t, h.transaction = some t → t.received.length ≤ 16
  /-- SDOn is at high impedance exactly while no transaction is in progress (R181, R182). -/
  sdo : h.sdo = .highZ ↔ h.transaction = none

/-! ## The holdings of a port and its session -/

/-- Port p's session has ended. -/
def State.closed (s : State) (p : Port) : Prop := (s.su.sessions.get p).state = .closed

/-- TT has purged port p, as SU knows it or is about to learn it: the session is CLOSED, or CLOSING with TT's done
report taken or on its way. -/
def State.purgedAtTt (s : State) (p : Port) : Prop :=
  (s.su.sessions.get p).state = .closed ∨
    ((s.su.sessions.get p).state = .closing ∧ ((s.su.sessions.get p).awaited.tt = false ∨ p ∈ s.tt.toSu))

/-- A message on the path SU → TT comes from port p or purges it. -/
def SuTtMsg.concerns (p : Port) : SuTtMsg → Bool
  | .request r => r.port == p
  | .purge q => q == p

/-- What ties the entries of port p to its session, message by message (R70, R92, R156, R157). -/
structure State.TableTied (s : State) (p : Port) : Prop where
  /-- Once TT has purged p, nothing of p is in the table or on its way to it. -/
  gone : s.purgedAtTt p →
    (∀ i : EntryIndex, TriggerTable.heldBy p s.tt.entries[i] = false) ∧
      s.su.toTt.filter (SuTtMsg.concerns p) = []
  /-- While the purge of p is on its way, it is the last message of p on its path. -/
  last : (s.su.sessions.get p).state = .closing → (s.su.sessions.get p).awaited.tt = true → p ∉ s.tt.toSu →
    ∃ before, s.su.toTt.filter (SuTtMsg.concerns p) = before ++ [.purge p] ∧ .purge p ∉ before
  /-- In OPEN no purge of p is on its way. -/
  none : (s.su.sessions.get p).state = .opened → .purge p ∉ s.su.toTt
  /-- TT's done report for p is on its way at most once, while SU awaits it. -/
  report : s.tt.toSu.count p ≤ 1 ∧
    (p ∈ s.tt.toSu → (s.su.sessions.get p).state = .closing ∧ (s.su.sessions.get p).awaited.tt = true)

/-- Every trigger entry that is not FREE has an owner whose session is OPEN or CLOSING (R70). -/
def State.EntriesOwned (s : State) : Prop :=
  ∀ i : EntryIndex, ∀ b, s.tt.entries[i] = some b → ¬ s.closed b.owner

/-- CU has purged port p, as SU knows it or is about to learn it. -/
def State.purgedAtCu (s : State) (p : Port) : Prop :=
  (s.su.sessions.get p).state = .closed ∨
    ((s.su.sessions.get p).state = .closing ∧ ((s.su.sessions.get p).awaited.cu = false ∨ p ∈ s.cu.toSu))

/-- A message on the path SU → CU comes from port p or purges it. -/
def SuCuMsg.concerns (p : Port) : SuCuMsg → Bool
  | .request r => r.port == p
  | .purge q => q == p

/-- What ties port p's lease and wait place to its session, message by message (R162, R167). -/
structure State.LeaseTied (s : State) (p : Port) : Prop where
  /-- Once CU has purged p, it neither holds nor waits, and nothing of p is on its way to CU. -/
  gone : s.purgedAtCu p →
    s.cu.holder ≠ some p ∧ p ∉ s.cu.waiting ∧ s.su.toCu.filter (SuCuMsg.concerns p) = []
  /-- While the purge of p is on its way, it is the last message of p on its path. -/
  last : (s.su.sessions.get p).state = .closing → (s.su.sessions.get p).awaited.cu = true → p ∉ s.cu.toSu →
    ∃ before, s.su.toCu.filter (SuCuMsg.concerns p) = before ++ [.purge p] ∧ .purge p ∉ before
  /-- In OPEN no purge of p is on its way. -/
  none : (s.su.sessions.get p).state = .opened → .purge p ∉ s.su.toCu
  /-- CU's done report for p is on its way at most once, while SU awaits it. -/
  report : s.cu.toSu.count p ≤ 1 ∧
    (p ∈ s.cu.toSu → (s.su.sessions.get p).state = .closing ∧ (s.su.sessions.get p).awaited.cu = true)

/-- The holder and every port in the wait list have sessions OPEN or CLOSING (R162). -/
def State.LeaseOwned (s : State) : Prop :=
  (∀ p, s.cu.holder = some p → ¬ s.closed p) ∧ ∀ p, p ∈ s.cu.waiting → ¬ s.closed p

/-- LU has ended its part of port p's teardown, as SU knows it or is about to learn it. -/
def State.purgedAtLu (s : State) (p : Port) : Prop :=
  (s.su.sessions.get p).state = .closed ∨
    ((s.su.sessions.get p).state = .closing ∧ ((s.su.sessions.get p).awaited.lu = false ∨ p ∈ s.lu.toSu))

/-- A message on the path SU → LU comes from port p or releases all its lines. -/
def SuLuMsg.concerns (p : Port) : SuLuMsg → Bool
  | .request r => r.port == p
  | .releaseAll q => q == p

/-- Port p owns no line. -/
def LineUnit.ownsNothing (u : LineUnit) (p : Port) : Prop := ∀ l, (u.lines.get l).state.owner ≠ some p

/-- What ties port p's trigger lines to its session, message by message (R142, R156, R157). -/
structure State.LineTied (s : State) (p : Port) : Prop where
  /-- Once LU has ended its part, p owns no line, nothing of p is on its way to LU, and p's mark is not left at it. -/
  gone : s.purgedAtLu p →
    s.lu.ownsNothing p ∧ s.su.toLu.filter (SuLuMsg.concerns p) = [] ∧ s.lu.marks.get p ≠ .releaseAllTaken
  /-- While SU awaits TT's done report it has sent no release-all for p, and LU cannot have reported. -/
  before : (s.su.sessions.get p).state = .closing → (s.su.sessions.get p).awaited.tt = true →
    (s.su.sessions.get p).awaited.lu = true ∧ p ∉ s.lu.toSu ∧ .releaseAll p ∉ s.su.toLu ∧
      s.lu.marks.get p ≠ .releaseAllTaken
  /-- After it, the release-all of p is the last message of p on its path, or LU has taken it and waits for the references
  purged alone. -/
  after : (s.su.sessions.get p).state = .closing → (s.su.sessions.get p).awaited.tt = false →
    (s.su.sessions.get p).awaited.lu = true → p ∉ s.lu.toSu →
    (s.lu.marks.get p ≠ .releaseAllTaken ∧
      ∃ before, s.su.toLu.filter (SuLuMsg.concerns p) = before ++ [.releaseAll p] ∧ .releaseAll p ∉ before) ∨
    (s.lu.marks.get p = .releaseAllTaken ∧ s.lu.ownsNothing p ∧ s.su.toLu.filter (SuLuMsg.concerns p) = [])
  /-- In OPEN no release-all of p is on its way, and none has been taken. -/
  none : (s.su.sessions.get p).state = .opened →
    .releaseAll p ∉ s.su.toLu ∧ s.lu.marks.get p ≠ .releaseAllTaken
  /-- LU's done report for p is on its way at most once, while SU awaits it. -/
  report : s.lu.toSu.count p ≤ 1 ∧
    (p ∈ s.lu.toSu → (s.su.sessions.get p).state = .closing ∧ (s.su.sessions.get p).awaited.lu = true)

/-- Every trigger line that is not UNOWNED has an owner whose session is OPEN or CLOSING (R157). -/
def State.LinesOwned (s : State) : Prop := ∀ p, s.closed p → s.lu.ownsNothing p

/-- NU has ended its part of port p's teardown, as SU knows it or is about to learn it. -/
def State.purgedAtNu (s : State) (p : Port) : Prop :=
  (s.su.sessions.get p).state = .closed ∨
    ((s.su.sessions.get p).state = .closing ∧ ((s.su.sessions.get p).awaited.nu = false ∨ p ∈ s.nu.toSu))

/-- A message on the path SU → NU opens or closes port p. -/
def SuNuMsg.moves (p : Port) : SuNuMsg → Bool
  | .openPort q _ => q == p
  | .closePort q => q == p
  | .request _ => false

/-- What ties port p's notice queue to its session, message by message (R128, R129, R156, R157). -/
structure State.NoticeTied (s : State) (p : Port) : Prop where
  /-- Once NU has ended its part, p is closed there, awaits no purge mark, and nothing is on its way to open it. -/
  gone : s.purgedAtNu p →
    (s.nu.ports.get p).opened = false ∧ (s.nu.ports.get p).markAwaited = false ∧
      s.su.toNu.filter (SuNuMsg.moves p) = []
  /-- Until then the close of p is the last message on its path that opens or closes p, or NU has taken it and awaits the
  purge mark alone. -/
  last : (s.su.sessions.get p).state = .closing → (s.su.sessions.get p).awaited.nu = true → p ∉ s.nu.toSu →
    ((s.nu.ports.get p).markAwaited = false ∧
      ∃ before, s.su.toNu.filter (SuNuMsg.moves p) = before ++ [.closePort p] ∧ .closePort p ∉ before) ∨
    ((s.nu.ports.get p).markAwaited = true ∧ (s.nu.ports.get p).opened = false ∧
      s.su.toNu.filter (SuNuMsg.moves p) = [])
  /-- In OPEN no close of p is on its way, and no purge mark is awaited. -/
  none : (s.su.sessions.get p).state = .opened →
    .closePort p ∉ s.su.toNu ∧ (s.nu.ports.get p).markAwaited = false
  /-- NU's done report for p is on its way at most once, while SU awaits it. -/
  report : s.nu.toSu.count p ≤ 1 ∧
    (p ∈ s.nu.toSu → (s.su.sessions.get p).state = .closing ∧ (s.su.sessions.get p).awaited.nu = true)

/-- A port whose session is CLOSED has an empty notice queue and an empty owed list, and its summary-owed flag is clear
(R129, R157). -/
def State.NoticesOwned (s : State) : Prop :=
  ∀ p, s.closed p → (s.nu.ports.get p).queue = [] ∧ (s.nu.ports.get p).owed = [] ∧
    (s.nu.ports.get p).summaryOwed = false

/-! ## The timers (R198) -/

/-- The conditions on the timers. -/
structure State.TimersSound (s : State) : Prop where
  /-- From RESET_N found low until reset ends every timer is stopped (R11, R198). -/
  stopped : s.phase ≠ .running → s.timers = []
  /-- No running timer's tick has gone by: an expiry is taken at its tick (R198). -/
  ahead : ∀ u ∈ s.timers, s.now ≤ u

end Sys2Proof.Machine
end

