-- ==== Sys2Proof/Certificates/Slice0/Obligations.lean ====
section
/-! DEFINITION. The statements for the provers. Each is about every state and every operand its hypotheses leave open, and
takes its words from the rules of the manual named in its docstring. A statement of a command's effect gives the
whole next state, so that it says at once that the command completes, what it changes and that nothing else
changes. The names of section Claims gather what several statements use. -/

open Sys2Proof Sys2Proof.Machine

/-! ## The whole machine -/

/-- A step runs the command at the front of the queue, on the queue's rest (the queue is the model's: DESIGN CHOICE,
notes/assumptions/1.md). -/
def Obligations.StepRunsFrontCommand : Prop :=
  ∀ (c : Instr) (s : State) (rest : List Instr),
    s.pending = c :: rest → step s = exec c { s with pending := rest }

/-- Every command is taken as one whole happening and completes (R2): no fault and no refusal. That it completes from any
state, one that does not offer its happening included, and leaves the queue alone is the model's choice (DESIGN CHOICE,
notes/assumptions/1.md), and so is a timebase that commands move and none turns back (DESIGN CHOICE,
notes/assumptions/2.md and 3.md). Only the three reset happenings move the place in a reset (R199). -/
def Obligations.EveryCommandCompletes : Prop :=
  ∀ (c : Instr) (s : State), ∃ t, exec c s = .next t ∧ t.pending = s.pending ∧ s.now ≤ t.now ∧
    (c ≠ .reset → c ≠ .resetFoundHigh → c ≠ .resetEnd → t.phase = s.phase)

/-- From RESET_N found low until reset ends, every block ignores its inputs (R199): a command that is not one of the
three reset happenings changes nothing. -/
def Obligations.ResetIgnoresInputs : Prop :=
  ∀ (c : Instr) (s : State), s.phase ≠ .running → c ≠ .reset → c ≠ .resetFoundHigh → c ≠ .resetEnd →
    exec c s = .next s

/-- RESET leaves every block at the values the manual gives for after reset, with nothing on any path, and keeps the
timebase and the queue, which are the model's (DESIGN CHOICE, notes/assumptions/3.md and 1.md). That the receive shifter
and the clock count of an idle reception stand at 0 is a DESIGN CHOICE as well (notes/assumptions/20.md), and the record
of what SDOn showed is the model's own (notes/assumptions/10.md). -/
def Obligations.ResetGivesTheManualsValues : Prop :=
  ∀ s : State, ∃ t, exec .reset s = .next t ∧ t.phase = .low ∧ t.now = s.now ∧ t.pending = s.pending ∧
    -- Sample Intake (section 1.9); the stale timer is stopped while the device is in reset (R198)
    t.si = ⟨none, 0, none, ⟨false, false, false, true⟩, ⟨0, 0, 0, 0⟩, ⟨none, none, none, none⟩, 0, 0, 0,
      ⟨false, 0, 0⟩, [], [], [], ⟨[], [], [], []⟩⟩ ∧
    -- Tracking Loop (R32)
    t.tl = ⟨⟨.halted, 0, 0, 0, 0, 0, 0, 0, 0, false, false, 0, 0, 0⟩, [], [], [], ⟨[], [], [], []⟩⟩ ∧
    -- Trigger Table (section 4.13)
    (∀ i : EntryIndex, t.tt.entries[i] = none) ∧ t.tt.serial = 0 ∧ t.tt.lineOwner = ⟨none, none, none, none⟩ ∧
    t.tt.toNu = [] ∧ t.tt.toLu = [] ∧ t.tt.toSu = [] ∧ t.tt.toHp = ⟨[], [], [], []⟩ ∧
    -- Notice Unit (R113, R114, R130)
    (∀ p, t.nu.ports.get p = ⟨false, ⟨false, false, false, false⟩, [], [], false, 0, false, false, false⟩) ∧
    t.nu.copies = ⟨.halted, 0, ⟨false, false, false, true⟩, none, .bank0, 0⟩ ∧
    t.nu.toTt = [] ∧ t.nu.toSu = [] ∧ t.nu.toHp = ⟨[], [], [], []⟩ ∧
    -- Line Unit (R132, R133)
    (∀ l, t.lu.lines.get l = ⟨.unowned, .activeHigh, 1, 0, ⟨0, 0, 0, 0⟩, .undriven⟩) ∧
    (∀ p, t.lu.marks.get p = .clear) ∧ t.lu.toTt = [] ∧ t.lu.toSu = [] ∧ t.lu.toHp = ⟨[], [], [], []⟩ ∧
    -- Session Unit (R145)
    (∀ p, t.su.sessions.get p = ⟨.closed, 0, 0, none, .reset, ⟨false, false, false, false, false⟩, none⟩) ∧
    t.su.toSi = [] ∧ t.su.toTl = [] ∧ t.su.toTt = [] ∧ t.su.toNu = [] ∧ t.su.toLu = [] ∧ t.su.toCu = [] ∧
    t.su.toHp = ⟨[], [], [], []⟩ ∧
    -- Configuration Unit (R170, R180)
    t.cu.holder = none ∧ t.cu.waiting = [] ∧ t.cu.bank0 = t.cu.bank1 ∧
    t.cu.bank0 = ⟨0, 0, 1024, 512, 2000, 4, 500, 32, 32, 64, 24, 32, 2, 0, 7, 4096, false, ⟨16, 16, 16, 16⟩⟩ ∧
    t.cu.activeIndex = .bank0 ∧ t.cu.activationPending = false ∧ t.cu.loopIdle = true ∧
    t.cu.toTl = [] ∧ t.cu.toSi = [] ∧ t.cu.toNu = [] ∧ t.cu.toSu = [] ∧ t.cu.toHp = ⟨[], [], [], []⟩ ∧
    -- Host Ports (R181, R195)
    (∀ p, t.hp.get p = ⟨.idle, 0, 0, none, .highZ, [], []⟩)

/-- A whole reset, RESET, RESET_N_FOUND_HIGH and RESET_END, ends 50 µs after RESET_N is found high, with the stale timer
restarted with 500 µs (R11, R199) and every other part of the state as State.reset has it. That the timebase runs through
the start time is DEDUCED (notes/assumptions/5.md), and that RESET_END moves it to the tick of the end of reset a DESIGN
CHOICE (notes/assumptions/2.md). That RESET_N_FOUND_HIGH and RESET_END change nothing from any other place in a reset is
DEDUCED (notes/assumptions/8.md). -/
def Obligations.ResetRunsToItsEnd : Prop :=
  ∀ s : State, ∃ a b c, exec .reset s = .next a ∧ exec .resetFoundHigh a = .next b ∧ exec .resetEnd b = .next c ∧
    c = { State.reset with
      now := s.now + 50, pending := s.pending,
      si := { State.reset.si with staleTimer := some (s.now + 50 + 500 + 1) } } ∧
    (∀ u : State, u.phase ≠ .low → exec .resetFoundHigh u = .next u) ∧
    (∀ u : State, (∀ e, u.phase ≠ .starting e) → exec .resetEnd u = .next u)

namespace Sys2Proof.Claims

/-- No running timer of the device runs toward a tick before t: not the stale timer, not the session timer of an OPEN
session, not the pulse timer of a PULSING line, which expires at the tick after its pulse end (R12, R139, R149, R198; for
the pulse DEDUCED, notes/assumptions/6.md). -/
def NoTimerBefore (s : State) (t : Nat) : Prop :=
  (∀ u, s.si.staleTimer = some u → t ≤ u) ∧
    (∀ p u, (s.su.sessions.get p).state = .opened → (s.su.sessions.get p).timer = some u → t ≤ u) ∧
    (∀ l p e, (s.lu.lines.get l).state = .pulsing p e → t ≤ e + 1)

/-- The expiry of a timer that runs toward tick t comes next as far as the timers go: the timebase has reached the tick,
or no other running timer's tick lies before it. -/
def Comes (s : State) (t : Nat) : Prop := t ≤ s.now ∨ NoTimerBefore s t

/-- Port p's session timer runs toward tick t. -/
def SessionTimerAt (s : State) (p : Port) (t : Nat) : Prop :=
  (s.su.sessions.get p).state = .opened ∧ (s.su.sessions.get p).timer = some t

/-- The pulse timer of line l runs toward tick t. -/
def PulseTimerAt (s : State) (l : Line) (t : Nat) : Prop := ∃ p e, (s.lu.lines.get l).state = .pulsing p e ∧ e + 1 = t

/-- The command names the expiry of a timer that runs toward tick t. -/
def ExpiryAt (s : State) (c : Instr) (t : Nat) : Prop :=
  (c = .staleTimerExpiry ∧ s.si.staleTimer = some t) ∨ (∃ p, c = .sessionTimerExpiry p ∧ SessionTimerAt s p t) ∨
    ∃ l, c = .pulseEnd l ∧ PulseTimerAt s l t

end Sys2Proof.Claims

open Sys2Proof.Claims

/-- A timer restarted with d µs at tick n runs toward tick n + d + 1 and expires there (R198). A running device left to itself
ticks up to the first tick T toward which a timer runs, with nothing else changed, and there it takes the expiry: of the
stale timer (R12), of the session timer of an OPEN session (R149, R150), of the pulse timer of a PULSING line (R141). An
expiry named by a command before its tick is the expiry at its tick where no other timer's tick comes before that one,
and is not offered otherwise. That an empty queue lets the timebase tick, that a command moves it, and the order of
expiries at one tick, stale timer, then P0 to P3, then TRG0 to TRG3, are the model's (DESIGN CHOICE,
notes/assumptions/2.md); the pulse's tick is DEDUCED (notes/assumptions/6.md). -/
def Obligations.TimersExpireAtTheirTick : Prop :=
  ∀ (s : State) (T : Nat), s.phase = .running →
    let due := { s with now := T }
    (s.pending = [] → s.now ≤ T → NoTimerBefore s T →
      (∀ k, s.now + k ≤ T → core.run k s = .next { s with now := s.now + k }) ∧
      (s.si.staleTimer = some T → step due = exec .staleTimerExpiry due) ∧
      (∀ p, SessionTimerAt s p T → s.si.staleTimer ≠ some T →
        (∀ q : Port, q.byte.toNat < p.byte.toNat → ¬ SessionTimerAt s q T) →
        step due = exec (.sessionTimerExpiry p) due) ∧
      (∀ l, PulseTimerAt s l T → s.si.staleTimer ≠ some T → (∀ q, ¬ SessionTimerAt s q T) →
        (∀ m : Line, m.byte.toNat < l.byte.toNat → ¬ PulseTimerAt s m T) →
        step due = exec (.pulseEnd l) due)) ∧
    (∀ c, ExpiryAt s c T → s.now < T →
      (NoTimerBefore s T → exec c s = exec c due) ∧ (¬ NoTimerBefore s T → exec c s = .next s))

/-! ## Sample Intake -/

namespace Sys2Proof.Claims

/-- A sample frame is open and nothing of it has been clocked (R5). -/
def FrameOpen (s : State) : Prop := s.phase = .running ∧ s.si.reception = ⟨true, 0, 0⟩

/-- The number of ones a frame holds at the bit places of a group (section 11.1). -/
def onesIn (f : BitVec 32) (group : Nat → Bool) : Nat :=
  ((List.range 32).filter (fun i => group i && f.getLsbD i)).length

/-- Both parity groups hold an even number of ones: bits 31–16 with bit 1, and bits 15–2 with bit 0 (R6). -/
def ParityGood (f : BitVec 32) : Prop :=
  onesIn f (fun i => decide (16 ≤ i) || i == 1) % 2 = 0 ∧
    onesIn f (fun i => (decide (2 ≤ i) && decide (i ≤ 15)) || i == 0) % 2 = 0

/-- The corrected sine of a frame (R14): bits 27–16 less offS, limited to −2048 to +2047. -/
def corrS (b : Bank) (f : BitVec 32) : Int := max (-2048) (min 2047 ((f.extractLsb' 16 12).toInt - b.offS))

/-- The corrected cosine of a frame (R14): bits 15–4 less offC, times gainC, divided by 1024 toward zero, limited. -/
def corrC (b : Bank) (f : BitVec 32) : Int :=
  max (-2048) (min 2047 ((((f.extractLsb' 4 12).toInt - b.offC) * b.gainC).tdiv 1024))

/-- The gap of a frame that is accepted (R8). -/
def gap (baseline : Option (BitVec 4)) (n : BitVec 4) : Nat :=
  match baseline with
  | none => 0
  | some x => (n.toNat + 16 - x.toNat + 15) % 16

/-- What becomes of a cause and of its run counter at one accepted frame, by R16. -/
def Persists (cond before after : Bool) (run run' : BitVec 4) (p : Nat) : Prop :=
  (cond = before → after = before ∧ run' = 0) ∧
    (cond ≠ before → p ≤ run.toNat + 1 → after = cond ∧ run' = 0) ∧
    (cond ≠ before → run.toNat + 1 < p → after = before ∧ run' = run + 1)

end Sys2Proof.Claims

open Sys2Proof.Claims

/-- SFRM_S_RISES opens a frame with the shifter and the clock count cleared (R5). SAMPLE_FRAME rejects a frame of any
other number of clocks than 32, and a frame of 32 clocks with an odd parity group; only REJECTED changes, by one,
saturating (R6). A frame passing both whose number is the baseline changes only DUPLICATE (R8). A falling edge of SFRM_S
with no frame open, as after a reset that ended with SFRM_S high, is ignored whatever was clocked (R5). -/
def Obligations.FramesOpenedRejectedAndDuplicated : Prop :=
  (∀ (s : State) (levels : List Bool), s.phase = .running → s.si.reception.inFrame = false →
    exec (.sampleFrame levels) s = .next s) ∧
  (∀ s : State, s.phase = .running →
    exec .sfrmRises s = .next { s with si := { s.si with reception := ⟨true, 0, 0⟩ } }) ∧
  (∀ (s : State) (levels : List Bool), FrameOpen s → levels.length ≠ 32 → ∃ r, r.inFrame = false ∧
    exec (.sampleFrame levels) s = .next { s with
      si := { s.si with reception := r, rejected := satAdd16 s.si.rejected 1 } }) ∧
  (∀ (s : State) (f : BitVec 32), FrameOpen s → ¬ ParityGood f → ∃ r, r.inFrame = false ∧
    exec (.sampleFrame (frameLevels f)) s = .next { s with
      si := { s.si with reception := r, rejected := satAdd16 s.si.rejected 1 } }) ∧
  (∀ (s : State) (f : BitVec 32), FrameOpen s → ParityGood f → s.si.baseline = some (f.extractLsb' 28 4) →
    ∃ r, r.inFrame = false ∧ exec (.sampleFrame (frameLevels f)) s = .next { s with
      si := { s.si with reception := r, duplicate := satAdd16 s.si.duplicate 1 } })

/-- An accepted frame (R8, R9, R10, R11, R14, R23): the baseline becomes its number, the stamp advances by the gap plus
one, GAP grows by the gap, the stale timer is restarted with the active bank's timeout, and TL gets one frame
message with the corrected pair, usable exactly when no cause is then active. SI's other counters and paths, and
all the other blocks, stay as they were. -/
def Obligations.AcceptedFrameIsHandedToTheLoop : Prop :=
  ∀ (s : State) (f : BitVec 32), FrameOpen s → ParityGood f → s.si.baseline ≠ some (f.extractLsb' 28 4) →
    let k := gap s.si.baseline (f.extractLsb' 28 4)
    ∃ i : SampleIntake, exec (.sampleFrame (frameLevels f)) s = .next { s with si := i } ∧
      i.baseline = some (f.extractLsb' 28 4) ∧
      i.stamp.toNat = (s.si.stamp.toNat + k + 1) % 65536 ∧
      i.gap.toNat = min 65535 (s.si.gap.toNat + k) ∧
      i.staleTimer = some (s.now + s.bank.staleTimeout + 1) ∧
      i.toTl = s.si.toTl ++ [.frame (BitVec.ofNat 4 k) (corrS s.bank f) (corrC s.bank f)
        (decide (i.active = ⟨false, false, false, false⟩)) i.stamp] ∧
      i.rejected = s.si.rejected ∧ i.duplicate = s.si.duplicate ∧ i.reception.inFrame = false ∧
      i.toSu = s.si.toSu ∧ i.toHp = s.si.toHp

/-- What an accepted frame does to health (R15 to R20, R24, R25): STALE becomes inactive with its run counter 0;
LOW_AMPLITUDE and SATURATED follow the persistence rule on m < Alow² and on "saturating"; FRONT_END follows FE_FAULT;
each cause that became active joins the sticky set of every open port; and NU gets one health report, with the
active set, the causes that differ and the new stamp, exactly when the active set is another than before. -/
def Obligations.AcceptedFrameJudgesHealth : Prop :=
  ∀ (s : State) (f : BitVec 32), FrameOpen s → ParityGood f → s.si.baseline ≠ some (f.extractLsb' 28 4) →
    let b := s.bank
    let m := corrS b f * corrS b f + corrC b f * corrC b f
    let raw := fun (x : BitVec 12) => x.toInt = -2048 ∨ x.toInt = 2047
    let saturating : Prop := raw (f.extractLsb' 16 12) ∨ raw (f.extractLsb' 4 12) ∨ f.getLsbD 3 = true ∨
      (b.aHigh : Int) * b.aHigh < m
    ∃ i : SampleIntake, exec (.sampleFrame (frameLevels f)) s = .next { s with si := i } ∧
      i.active.stale = false ∧ i.runs.stale = 0 ∧
      (∀ low : Bool, (low = true ↔ m < (b.aLow : Int) * b.aLow) →
        Persists low s.si.active.lowAmplitude i.active.lowAmplitude s.si.runs.lowAmplitude i.runs.lowAmplitude
          b.persistence) ∧
      (∀ sat : Bool, (sat = true ↔ saturating) →
        Persists sat s.si.active.saturated i.active.saturated s.si.runs.saturated i.runs.saturated b.persistence) ∧
      (f.getLsbD 2 = true → i.active.frontEnd = true ∧ i.runs.frontEnd = 0) ∧
      (f.getLsbD 2 = false → s.si.active.frontEnd = false → i.active.frontEnd = false ∧ i.runs.frontEnd = 0) ∧
      (f.getLsbD 2 = false → s.si.active.frontEnd = true →
        Persists false true i.active.frontEnd s.si.runs.frontEnd i.runs.frontEnd b.persistence) ∧
      (∀ p, s.si.sticky.get p = none → i.sticky.get p = none) ∧
      (∀ p c, s.si.sticky.get p = some c → i.sticky.get p = some (c.union (i.active.diff s.si.active))) ∧
      (i.active = s.si.active → i.toNu = s.si.toNu) ∧
      (i.active ≠ s.si.active → i.toNu = s.si.toNu ++ [⟨i.active, i.active.differing s.si.active, i.stamp⟩])

/-- An expiry of the stale timer at its tick (R12): STALE's run counter grows by one, saturating at 15, and the timer
restarts with the active bank's timeout. With STALE inactive it becomes active, the baseline becomes none, TL gets a
stale message, every open port's sticky set gains STALE and NU gets a health report with the changed causes {STALE}.
With STALE active nothing else changes. The other three causes and their run counters keep their values. -/
def Obligations.StaleTimerExpiry : Prop :=
  ∀ (s : State) (e : Nat), s.phase = .running → s.si.staleTimer = some e → e ≤ s.now →
    let counted := { s.si with
      runs := { s.si.runs with stale := if s.si.runs.stale = 15 then 15 else s.si.runs.stale + 1 }
      staleTimer := some (s.now + s.bank.staleTimeout + 1) }
    let active := { s.si.active with stale := true }
    let stick := fun (c : Option CauseSet) => c.map (fun x => { x with stale := true })
    (s.si.active.stale = true → exec .staleTimerExpiry s = .next { s with si := counted }) ∧
    (s.si.active.stale = false → exec .staleTimerExpiry s = .next { s with si := { counted with
      baseline := none
      active := active
      toTl := s.si.toTl ++ [.stale]
      sticky := ⟨stick s.si.sticky.p0, stick s.si.sticky.p1, stick s.si.sticky.p2, stick s.si.sticky.p3⟩
      toNu := s.si.toNu ++ [⟨active, ⟨false, false, false, true⟩, s.si.stamp⟩] } })

/-- The session messages and the health requests SI takes from SU → SI (R26, R27, R28, payloads by section 11.3): open p
gives an empty sticky set; close p takes it away and reports done; READ_HEALTH changes nothing and answers the causes,
the run counters, the caller's sticky set and the stamp; ACK_HEALTH takes every inactive cause out of the caller's
sticky set and answers what remains. -/
def Obligations.SessionAndHealthRequestsAtIntake : Prop :=
  ∀ (s : State) (p : Port) (tag : Byte) (rest : List SuSiMsg), s.phase = .running →
    (s.su.toSi = .openPort p :: rest → exec .openAtSi s = .next { s with
      su := { s.su with toSi := rest }
      si := { s.si with sticky := s.si.sticky.set p (some ⟨false, false, false, false⟩) } }) ∧
    (s.su.toSi = .closePort p :: rest → exec .closeAtSi s = .next { s with
      su := { s.su with toSi := rest }
      si := { s.si with sticky := s.si.sticky.set p none, toSu := s.si.toSu ++ [p] } }) ∧
    (∀ c, s.su.toSi = .request ⟨p, tag, .readHealth⟩ :: rest → s.si.sticky.get p = some c →
      exec .readHealth s = .next { s with
        su := { s.su with toSi := rest }
        si := { s.si with toHp := s.si.toHp.push p ⟨.ok, tag,
          [s.si.active.byte, s.si.runs.frontEnd.setWidth 8, s.si.runs.lowAmplitude.setWidth 8,
            s.si.runs.saturated.setWidth 8, s.si.runs.stale.setWidth 8, c.byte,
            s.si.stamp.extractLsb' 8 8, s.si.stamp.extractLsb' 0 8]⟩ } }) ∧
    (∀ c, s.su.toSi = .request ⟨p, tag, .ackHealth⟩ :: rest → s.si.sticky.get p = some c →
      let kept : CauseSet := ⟨c.frontEnd && s.si.active.frontEnd, c.lowAmplitude && s.si.active.lowAmplitude,
        c.saturated && s.si.active.saturated, c.stale && s.si.active.stale⟩
      exec .ackHealth s = .next { s with
        su := { s.su with toSi := rest }
        si := { s.si with
          sticky := s.si.sticky.set p (some kept), toHp := s.si.toHp.push p ⟨.ok, tag, [kept.byte]⟩ } })

/-- READ_COUNTERS and COUNTERS_CLEAR, at SI and then at TL (R30, R31, R55): SI puts its counters, as they stand, into the
first and sets them to 0 at the second, and passes both on to TL; TL adds AMBIGUOUS and OVERSPEED and answers all five
in the order REJECTED, DUPLICATE, GAP, AMBIGUOUS, OVERSPEED, or sets its two to 0 and answers OK. -/
def Obligations.CountersReadAndCleared : Prop :=
  ∀ (s : State) (p : Port) (tag : Byte), s.phase = .running →
    (∀ rest, s.su.toSi = .request ⟨p, tag, .readCounters⟩ :: rest → exec .readCounters s = .next { s with
      su := { s.su with toSi := rest }
      si := { s.si with
        toTl := s.si.toTl ++ [.readCounters p tag s.si.rejected s.si.duplicate s.si.gap] } }) ∧
    (∀ rest, s.cu.toSi = ⟨p, tag, .countersClear⟩ :: rest → exec .countersClear s = .next { s with
      cu := { s.cu with toSi := rest }
      si := { s.si with
        rejected := 0, duplicate := 0, gap := 0, toTl := s.si.toTl ++ [.countersClear p tag] } }) ∧
    (∀ rejected duplicate gap rest, s.si.toTl = .readCounters p tag rejected duplicate gap :: rest →
      exec .countersAtLoop s = .next { s with
        si := { s.si with toTl := rest }
        tl := { s.tl with toHp := s.tl.toHp.push p ⟨.ok, tag, bytes16 rejected ++ bytes16 duplicate ++
          bytes16 gap ++ bytes16 s.tl.loop.ambiguous ++ bytes16 s.tl.loop.overspeed⟩ } }) ∧
    (∀ rest, s.si.toTl = .countersClear p tag :: rest → exec .countersAtLoop s = .next { s with
      si := { s.si with toTl := rest }
      tl := { s.tl with
        loop := { s.tl.loop with ambiguous := 0, overspeed := 0 }
        toHp := s.tl.toHp.push p ⟨.ok, tag, []⟩ } })

/-! ## Tracking Loop -/

namespace Sys2Proof.Claims

/-- A stored step limited to the range from the ceiling to the floor (R35, R61). -/
def limited (b : Bank) (g : GainStep) : GainStep :=
  if g < b.ceiling then b.ceiling else if b.floor < g then b.floor else g

/-- The effective step: the ceiling in ACQUIRE, the limited stored step elsewhere (R35). -/
def effective (b : Bank) (l : LoopRecord) : GainStep := if l.state = .acquire then b.ceiling else limited b l.stored

/-- The prediction P of a step with gap k (R37, item 1). -/
def predicted (l : LoopRecord) (k : BitVec 4) : BitVec 24 :=
  l.acc + BitVec.ofInt 24 ((k.toNat + 1) * l.velocity)

/-- The error sign s of a corrected pair against the predicted angle (R36). -/
def stepSign (l : LoopRecord) (k : BitVec 4) (sine cosine : Int) : Int :=
  let θ : Word := (predicted l k).extractLsb' 8 16
  (sine * sineEntry ((θ + 16384).extractLsb' 4 12) - cosine * sineEntry (θ.extractLsb' 4 12)).sign

/-- The correction s·Kp[e] of a step; Kp halves from each gain step to the next (section 2.3). -/
def correction (b : Bank) (l : LoopRecord) (s : Int) : Int := s * (131072 / 2 ^ (effective b l).val)

/-- The candidate velocity v + s·Ki[e]; Ki is quartered from each gain step to the next (R37, item 4). -/
def candidate (b : Bank) (l : LoopRecord) (s : Int) : Int := l.velocity + s * (16384 / 4 ^ (effective b l).val)

/-- The displacement D of a step in ACQUIRE or TRACK (R37, item 6). -/
def displacement (b : Bank) (l : LoopRecord) (k : BitVec 4) (s : Int) : Int :=
  (k.toNat + 1) * l.velocity + correction b l s

/-- A displacement is ambiguous from 32767 × 256 on (R38). -/
def ambiguous (d : Int) : Bool := decide (8388352 ≤ d.natAbs)

/-- A checked velocity goes past the limit vmax × 256 (R34). -/
def clamps (b : Bank) (v : Int) : Bool := decide (b.vmax * 256 < v.natAbs)

/-- A checked velocity limited to vmax × 256 either way (R34). -/
def clamped (b : Bank) (v : Int) : Int := max (-((b.vmax : Int) * 256)) (min ((b.vmax : Int) * 256) v)

/-- The overspeed report of a velocity check: sent when the clamp flag turns on (R34). -/
def overspeedReport (b : Bank) (l : LoopRecord) (v : Int) (stamp : Word) : List TlNuMsg :=
  if clamps b v = true ∧ l.clamp = false then [.overspeed (clamped b v) stamp] else []

/-- The sign of a displacement, as a step report carries it (R39). -/
def signIs (d : Int) (s : Sign) : Prop := (s = .pos ↔ 0 < d) ∧ (s = .neg ↔ d < 0)

/-- The next message on SI → TL is this frame, and the device runs. -/
def FrameNext (s : State) (k : BitVec 4) (sine cosine : Int) (usable : Bool) (stamp : Word)
    (rest : List SiTlMsg) : Prop :=
  s.phase = .running ∧ s.si.toTl = .frame k sine cosine usable stamp :: rest

end Sys2Proof.Claims

/-- The sine table (R36): entry j is 2047 × sin(2πj/4096) rounded to the nearest whole number. No entry lies half way, so
the rounding of halves never comes to bear. -/
def Obligations.SineTableIsTheRoundedSine : Prop :=
  ∀ j : BitVec 12, |2047 * Real.sin (2 * Real.pi * (j.toNat : ℝ) / 4096) - ((sineEntry j : Int) : ℝ)| < 1 / 2

/-- The arithmetic of a step in ACQUIRE or TRACK on a usable frame (R33 to R39): prediction across the gap, error sign,
velocity check, accumulator, records, and in TRACK the ambiguity count and one step report. Everything outside
SI → TL and the loop stays as it was. -/
def Obligations.LoopStepArithmetic : Prop :=
  ∀ (s : State) (k : BitVec 4) (sine cosine : Int) (stamp : Word) (rest : List SiTlMsg),
    FrameNext s k sine cosine true stamp rest → s.tl.loop.state = .acquire ∨ s.tl.loop.state = .track →
    let b := s.bank
    let l := s.tl.loop
    let e := stepSign l k sine cosine
    let v := candidate b l e
    let d := displacement b l k e
    ∃ t : TrackingLoop, exec .frameMessage s = .next { s with si := { s.si with toTl := rest }, tl := t } ∧
      t.loop.acc = predicted l k + BitVec.ofInt 24 (correction b l e) ∧
      t.loop.velocity = clamped b v ∧ t.loop.clamp = clamps b v ∧
      t.loop.overspeed = (if clamps b v then satAdd16 l.overspeed 1 else l.overspeed) ∧
      t.loop.usable = true ∧ t.loop.stamp = stamp ∧ t.loop.coastCount = l.coastCount ∧ t.toHp = s.tl.toHp ∧
      (l.state = .acquire → t.toTt = s.tl.toTt ∧ t.loop.ambiguous = l.ambiguous) ∧
      (l.state = .track →
        t.loop.ambiguous = (if ambiguous d then satAdd16 l.ambiguous 1 else l.ambiguous) ∧
        ∃ sign, signIs d sign ∧ t.toTt = s.tl.toTt ++
          [⟨l.acc.extractLsb' 8 16, t.loop.acc.extractLsb' 8 16, sign, .track, stamp, ambiguous d⟩])

/-- The judgement windows (R57 to R65): a step is counted by its error sign; at position W the window ends with a boundary
message and is judged, in TRACK by the ladder move, in ACQUIRE by the lock run, which locks the loop at Lw; an
ambiguous TRACK step then goes to ACQUIRE. The messages to NU and CU stand in the order of the rules. The ceiling of
the active bank is at or below its floor, as every active bank has it (R174). -/
def Obligations.WindowsLadderAndLock : Prop :=
  ∀ (s : State) (k : BitVec 4) (sine cosine : Int) (stamp : Word) (rest : List SiTlMsg),
    FrameNext s k sine cosine true stamp rest → s.bank.ceiling ≤ s.bank.floor →
    let b := s.bank
    let l := s.tl.loop
    let e := stepSign l k sine cosine
    let pos := l.position + 1
    let np := if e = 1 then l.nPlus + 1 else l.nPlus
    let nm := if e = -1 then l.nMinus + 1 else l.nMinus
    let ended := b.window ≤ pos
    let i := min 128 (((np : Int) - nm).natAbs * 128 / b.window)
    let g := limited b l.stored
    let judged : GainStep :=
      if b.tu ≤ i then (if g = b.ceiling then g else g - 1) else if i ≤ b.td then (if g = b.floor then g else g + 1) else g
    let speeding := overspeedReport b l (candidate b l e) stamp
    let amb := ambiguous (displacement b l k e)
    let counts := fun (r : LoopRecord) (x : Nat × Nat × Nat) => (r.position, r.nPlus, r.nMinus) = x
    (l.state = .track → ∃ t : TrackingLoop,
      exec .frameMessage s = .next { s with si := { s.si with toTl := rest }, tl := t } ∧
      (ended → t.loop.stored = judged) ∧ (¬ ended → t.loop.stored = l.stored) ∧
      (amb = false → t.loop.state = .track ∧ t.loop.lockRun = l.lockRun ∧ t.toNu = s.tl.toNu ++ speeding ∧
        (ended → counts t.loop (0, 0, 0) ∧ t.toCu = s.tl.toCu ++ [.boundary]) ∧
        (¬ ended → counts t.loop (pos, np, nm) ∧ t.toCu = s.tl.toCu)) ∧
      (amb = true → t.loop.state = .acquire ∧ t.loop.lockRun = 0 ∧ counts t.loop (0, 0, 0) ∧
        t.toNu = s.tl.toNu ++ speeding ++ [.loop .track .acquire .ambiguousStep stamp b.ceiling] ∧
        (ended → t.toCu = s.tl.toCu ++ [.boundary, .state .acquire]) ∧
        (¬ ended → t.toCu = s.tl.toCu ++ [.state .acquire]))) ∧
    (l.state = .acquire → ∃ t : TrackingLoop,
      exec .frameMessage s = .next { s with si := { s.si with toTl := rest }, tl := t } ∧
      (¬ ended → t.loop.state = .acquire ∧ t.loop.stored = l.stored ∧ t.loop.lockRun = l.lockRun ∧
        counts t.loop (pos, np, nm) ∧ t.toNu = s.tl.toNu ++ speeding ∧ t.toCu = s.tl.toCu) ∧
      (ended → i ≤ b.tl → b.lw ≤ l.lockRun + 1 → t.loop.state = .track ∧ t.loop.stored = b.ceiling ∧
        t.loop.lockRun = 0 ∧ counts t.loop (0, 0, 0) ∧
        t.toNu = s.tl.toNu ++ speeding ++ [.loop .acquire .track .locked stamp b.ceiling] ∧
        t.toCu = s.tl.toCu ++ [.boundary, .state .track]) ∧
      (ended → i ≤ b.tl → l.lockRun + 1 < b.lw → t.loop.state = .acquire ∧ t.loop.stored = l.stored ∧
        t.loop.lockRun = l.lockRun + 1 ∧ counts t.loop (0, 0, 0) ∧ t.toNu = s.tl.toNu ++ speeding ∧
        t.toCu = s.tl.toCu ++ [.boundary]) ∧
      (ended → b.tl < i → t.loop.state = .acquire ∧ t.loop.stored = l.stored ∧ t.loop.lockRun = 0 ∧
        counts t.loop (0, 0, 0) ∧ t.toNu = s.tl.toNu ++ speeding ∧ t.toCu = s.tl.toCu ++ [.boundary]))

/-- A frame message with usable false (R40 to R43): records only in HALTED and LOST; ACQUIRE falls to LOST without a step;
TRACK falls to COAST and the frame is taken as the first COAST step; in COAST a step at the held velocity, limited
by vmax, moves the angle, counts, reports, and falls to LOST when it is ambiguous or reaches the coast limit. -/
def Obligations.UnusableFrame : Prop :=
  ∀ (s : State) (k : BitVec 4) (sine cosine : Int) (stamp : Word) (rest : List SiTlMsg),
    FrameNext s k sine cosine false stamp rest →
    let b := s.bank
    let l := s.tl.loop
    let taken := fun (t : TrackingLoop) => ({ s with si := { s.si with toTl := rest }, tl := t } : State)
    let noted := { l with usable := false, stamp := stamp }
    (l.state = .halted ∨ l.state = .lost → exec .frameMessage s = .next (taken { s.tl with loop := noted })) ∧
    (l.state = .acquire → exec .frameMessage s = .next (taken { s.tl with
      loop := { noted with state := .lost, velocity := 0 }
      toNu := s.tl.toNu ++ [.loop .acquire .lost .healthLost stamp (limited b l.stored)]
      toCu := s.tl.toCu ++ [.state .lost, .boundary] })) ∧
    (l.state = .track → exec .frameMessage s = exec .frameMessage { s with tl := { s.tl with
      loop := { l with state := .coast, coastCount := 0 }
      toNu := s.tl.toNu ++ [.loop .track .coast .healthLost stamp (limited b l.stored)]
      toCu := s.tl.toCu ++ [.state .coast] } }) ∧
    (l.state = .coast →
      let v := clamped b l.velocity
      let d := (k.toNat + 1) * v
      let a := l.acc + BitVec.ofInt 24 d
      let n : BitVec 8 := if l.coastCount = 255 then 255 else l.coastCount + 1
      let speeding := overspeedReport b l l.velocity stamp
      let moved := { noted with
        acc := a, velocity := v, clamp := clamps b l.velocity, coastCount := n
        overspeed := if clamps b l.velocity then satAdd16 l.overspeed 1 else l.overspeed
        ambiguous := if ambiguous d then satAdd16 l.ambiguous 1 else l.ambiguous }
      ∃ sign, signIs d sign ∧
        let reports := s.tl.toTt ++ [⟨l.acc.extractLsb' 8 16, a.extractLsb' 8 16, sign, .coast, stamp, ambiguous d⟩]
        let lost := fun (c : LoopCause) => taken { s.tl with
          loop := { moved with state := .lost, velocity := 0 }, toTt := reports
          toNu := s.tl.toNu ++ speeding ++ [.loop .coast .lost c stamp (limited b l.stored)]
          toCu := s.tl.toCu ++ [.state .lost, .boundary] }
        (ambiguous d = true → exec .frameMessage s = .next (lost .ambiguousStep)) ∧
        (ambiguous d = false → b.coastLimit ≤ n.toNat → exec .frameMessage s = .next (lost .coastLimit)) ∧
        (ambiguous d = false → n.toNat < b.coastLimit → exec .frameMessage s =
          .next (taken { s.tl with loop := moved, toTt := reports, toNu := s.tl.toNu ++ speeding })))

/-- A frame message with usable true, by the state it finds (R42, R44): records only in HALTED; from COAST and LOST the loop
first recovers, into TRACK where COAST finds hold-on-recovery on and into ACQUIRE otherwise, with its reports, and
the frame is then taken as a step of the state entered, whose arithmetic LoopStepArithmetic gives. -/
def Obligations.UsableFrameRecovers : Prop :=
  ∀ (s : State) (k : BitVec 4) (sine cosine : Int) (stamp : Word) (rest : List SiTlMsg),
    FrameNext s k sine cosine true stamp rest →
    let b := s.bank
    let l := s.tl.loop
    let fresh := { l with nPlus := 0, nMinus := 0, position := 0, lockRun := 0 }
    let recovered := fun (new : LoopState) (e : GainStep) => ({ s with tl := { s.tl with
      loop := { fresh with state := new }
      toNu := s.tl.toNu ++ [.loop l.state new .recovered stamp e]
      toCu := s.tl.toCu ++ [.state new] } } : State)
    (l.state = .halted → exec .frameMessage s = .next { s with
      si := { s.si with toTl := rest }, tl := { s.tl with loop := { l with usable := true, stamp := stamp } } }) ∧
    (l.state = .coast → b.holdOnRecovery = false →
      exec .frameMessage s = exec .frameMessage (recovered .acquire b.ceiling)) ∧
    (l.state = .coast → b.holdOnRecovery = true →
      exec .frameMessage s = exec .frameMessage (recovered .track (limited b l.stored))) ∧
    (l.state = .lost → exec .frameMessage s = exec .frameMessage (recovered .acquire b.ceiling))

/-- A stale message (R45): ACQUIRE, TRACK and COAST fall to LOST with cause HEALTH_LOST, no step and the angle frozen; in
HALTED and LOST there is no transition; in each case the recorded health becomes not usable. -/
def Obligations.StaleMessage : Prop :=
  ∀ (s : State) (rest : List SiTlMsg), s.phase = .running → s.si.toTl = .stale :: rest →
    let l := s.tl.loop
    (l.state = .halted ∨ l.state = .lost → exec .staleMessage s = .next { s with
      si := { s.si with toTl := rest }, tl := { s.tl with loop := { l with usable := false } } }) ∧
    (l.state = .acquire ∨ l.state = .track ∨ l.state = .coast → exec .staleMessage s = .next { s with
      si := { s.si with toTl := rest }
      tl := { s.tl with
        loop := { l with state := .lost, velocity := 0, usable := false }
        toNu := s.tl.toNu ++ [.loop l.state .lost .healthLost l.stamp (limited s.bank l.stored)]
        toCu := s.tl.toCu ++ [.state .lost, .boundary] } })

/-- START, HALT and RELOCK as TL takes them from CU (R46 to R52), with their reports and their responses: START is judged
by the recorded health in HALTED and refused elsewhere; HALT is taken in every state and changes nothing in HALTED;
RELOCK is taken in TRACK and COAST and refused elsewhere. A refusal is WRONG_STATE with the present state. -/
def Obligations.StartHaltAndRelock : Prop :=
  ∀ (s : State) (p : Port) (tag : Byte) (rest : List Request), s.phase = .running →
    let l := s.tl.loop
    let low := limited s.bank l.stored
    let fresh := { l with nPlus := 0, nMinus := 0, position := 0, lockRun := 0 }
    let out := fun (t : TrackingLoop) (st : Status) (payload : List Byte) => ({ s with
      cu := { s.cu with toTl := rest }
      tl := { t with toHp := s.tl.toHp.push p ⟨st, tag, payload⟩ } } : State)
    let moved := fun (r : LoopRecord) (cause : LoopCause) (e : GainStep) (more : List TlCuMsg) => { s.tl with
      loop := r, toNu := s.tl.toNu ++ [.loop l.state r.state cause l.stamp e]
      toCu := s.tl.toCu ++ [.state r.state] ++ more }
    (s.cu.toTl = ⟨p, tag, .start⟩ :: rest →
      (l.state = .halted → l.usable = true → exec .start s = .next (out
        (moved { fresh with state := .acquire, velocity := 0 } .start s.bank.ceiling []) .ok [1])) ∧
      (l.state = .halted → l.usable = false → exec .start s = .next (out
        (moved { l with state := .lost, velocity := 0 } .start low [.boundary]) .ok [4])) ∧
      (l.state ≠ .halted → exec .start s = .next (out s.tl .wrongState [l.state.byte]))) ∧
    (s.cu.toTl = ⟨p, tag, .halt⟩ :: rest →
      (l.state = .halted → exec .halt s = .next (out s.tl .ok [])) ∧
      (l.state ≠ .halted → exec .halt s = .next (out
        (moved { l with state := .halted } .halt low [.boundary]) .ok []))) ∧
    (s.cu.toTl = ⟨p, tag, .relock⟩ :: rest →
      (l.state = .track ∨ l.state = .coast → exec .relock s = .next (out
        (moved { fresh with state := .acquire } .relock s.bank.ceiling []) .ok [])) ∧
      (l.state ≠ .track → l.state ≠ .coast → exec .relock s = .next (out s.tl .wrongState [l.state.byte])))

/-- READ_ANGLE and READ_LOOP (R53, R54, payloads by section 11.3) are taken in every state of the loop and change nothing;
TL answers OK from its record as it stands. -/
def Obligations.LoopReads : Prop :=
  ∀ (s : State) (p : Port) (tag : Byte) (rest : List Request), s.phase = .running →
    let l := s.tl.loop
    let e := effective s.bank l
    (s.su.toTl = ⟨p, tag, .readAngle⟩ :: rest → exec .readAngle s = .next { s with
      su := { s.su with toTl := rest }
      tl := { s.tl with toHp := s.tl.toHp.push p ⟨.ok, tag,
        bytes16 (l.acc.extractLsb' 8 16) ++ bytesVelocity l.velocity ++
          [l.state.byte, byteOf e.val, flagByte l.usable] ++ bytes16 l.stamp⟩ } }) ∧
    (s.su.toTl = ⟨p, tag, .readLoop⟩ :: rest → exec .readLoop s = .next { s with
      su := { s.su with toTl := rest }
      tl := { s.tl with toHp := s.tl.toHp.push p ⟨.ok, tag,
        [l.state.byte, byteOf l.stored.val, byteOf e.val, byteOf l.nPlus, byteOf l.nMinus, byteOf l.position,
          byteOf l.lockRun, l.coastCount, flagByte l.clamp]⟩ } })

/-! ## Trigger Table -/

namespace Sys2Proof.Claims

/-- The next message on SU → TT is this request, and the device runs. -/
def TableRequest (s : State) (p : Port) (tag : Byte) (body : ReqBody) (rest : List SuTtMsg) : Prop :=
  s.phase = .running ∧ s.su.toTt = .request ⟨p, tag, body⟩ :: rest

/-- The next state in which TT has taken its request, stands as `t`, and has sent port p one response. Nothing else of the
device has changed. -/
def tableAnswers (s : State) (rest : List SuTtMsg) (t : TriggerTable) (p : Port) (tag : Byte) (st : Status)
    (payload : List Byte) : State :=
  { s with su := { s.su with toTt := rest }, tt := { t with toHp := t.toHp.push p ⟨st, tag, payload⟩ } }

/-- The number of entries of a port that are not FREE (R77). -/
def heldCount (t : TriggerTable) (p : Port) : Nat :=
  ((List.finRange 64).filter (fun i => t.entries[i].map Booking.owner == some p)).length

/-- A remaining argument in range: 1 to 255, or UNLIMITED (R75, R197). -/
def remainingOk (w : Word) : Bool := (decide (1 ≤ w.toNat) && decide (w.toNat ≤ 255)) || w == 0xFFFF

/-- The numbers of the arguments of a BOOK that are out of range, in argument order (R75). -/
def bookFaults (dir act line mode : Byte) (dist rem : Word) (conf : Byte) : List Nat :=
  (if 3 ≤ dir.toNat then [2] else []) ++ (if 3 ≤ act.toNat then [3] else []) ++
    (if (act = 1 ∨ act = 2) ∧ 4 ≤ line.toNat then [4] else []) ++ (if 2 ≤ mode.toNat then [5] else []) ++
    (if mode = 1 ∧ (dist.toNat = 0 ∨ 16384 < dist.toNat) then [6] else []) ++
    (if mode = 1 ∧ remainingOk rem = false then [7] else []) ++ (if 2 ≤ conf.toNat then [8] else [])

/-- The first check of AMEND passes: no bit above bit 3, a named direction and a named remaining in range (R80). -/
def amendOk (changes dir : Byte) (rem : Word) : Prop :=
  changes.toNat < 16 ∧ (changes.getLsbD 1 = true → dir.toNat < 3) ∧
    (changes.getLsbD 3 = true → remainingOk rem = true)

/-- A command and its request that name one booking by index and serial, past their own argument checks (R74). -/
def NamesBooking (c : Instr) (body : ReqBody) (index : Byte) (serial : Word) : Prop :=
  (c = .cancel ∧ body = .cancel index serial) ∨ (c = .suspend ∧ body = .suspend index serial) ∨
    (c = .resume ∧ body = .resume index serial) ∨
    (c = .amend ∧ ∃ ch angle dir tag rem, body = .amend index serial ch angle dir tag rem ∧ amendOk ch dir rem)

/-- The path length L of a report and the path distance of an angle x (R96). -/
def pathLength (r : StepReport) : Nat :=
  if r.sign = .pos then (r.newAngle - r.oldAngle).toNat else (r.oldAngle - r.newAngle).toNat

def pathDistance (r : StepReport) (x : Word) : Nat :=
  if r.sign = .pos then (x - r.oldAngle).toNat else (r.oldAngle - x).toNat

/-- A booking fires on a report (R95 to R100). -/
def Fires (r : StepReport) (b : Booking) : Prop :=
  r.ambiguous = false ∧ b.state = .armed ∧
    (r.sign ≠ .zero ∧ 1 ≤ pathDistance r b.angle ∧ pathDistance r b.angle ≤ pathLength r) ∧
    (b.direction = .both ∨ (b.direction = .fwd ∧ r.sign = .pos) ∨ (b.direction = .rev ∧ r.sign = .neg)) ∧
    (r.state = .track ∨ b.confidence = .trackOrCoast)

/-- The firing is the booking's last: ONCE, or a remaining of 1 (R105). -/
def lastFiring (b : Booking) : Bool :=
  match b.mode with
  | .once => true
  | .rearm _ rem => rem == .finite 1

/-- The record of a booking after a firing: its counts, its remaining and its next state before re-arming (R102, R105). -/
def afterFiring (r : StepReport) (b : Booking) : Booking :=
  { b with
    state := if lastFiring b then .spent else .recovering
    mode := match b.mode with
      | .once => .once
      | .rearm d (.finite n) => .rearm d (.finite (if n = 1 then 1 else n - 1))
      | .rearm d .unlimited => .rearm d .unlimited
    firedTotal := satAdd16 b.firedTotal 1
    lastFire := some ⟨b.angle, r.stamp⟩ }

/-- The re-arming test of R106: a RECOVERING booking at its re-arm distance or farther from the new angle becomes ARMED. -/
def rearmedAt (newAngle : Word) (b : Booking) : Booking :=
  match b.state, b.mode with
  | .recovering, .rearm d _ =>
    if d.toNat ≤ min (b.angle - newAngle).toNat (newAngle - b.angle).toNat then { b with state := .armed } else b
  | _, _ => b

end Sys2Proof.Claims

/-- A BOOK past its first three checks (R78): with no entry FREE it is refused with TABLE_FULL; otherwise the FREE entry with
the lowest index becomes ARMED with the arguments, the caller as owner and the counter's serial, the counter
increments, LU is told of a named line, and OK carries the index and the serial. -/
def Obligations.BookTakesTheLowestFreeEntry : Prop :=
  ∀ (s : State) (p : Port) (tag : Byte) (rest : List SuTtMsg) (angle : Word) (d : Direction) (a : Action)
    (line : Byte) (m : Mode) (dist rem : Word) (c : Confidence) (hostTag : Word),
    TableRequest s p tag (.book angle d.byte a.byte line m.byte dist rem c.byte hostTag) rest →
    (∀ l, a.line? = some l → line = l.byte ∧ s.tt.lineOwner.get l = some p) →
    (∀ x y, m = .rearm x y → dist = x ∧ rem = y.word ∧ 1 ≤ x.toNat ∧ x.toNat ≤ 16384 ∧ y ≠ .finite 0) →
    heldCount s.tt p < s.bank.quota.get p →
    ((∀ i : EntryIndex, s.tt.entries[i] ≠ none) →
      exec .book s = .next (tableAnswers s rest s.tt p tag .tableFull [])) ∧
    (∀ i : EntryIndex, s.tt.entries[i] = none → (∀ j : EntryIndex, j < i → s.tt.entries[j] ≠ none) →
      exec .book s = .next (tableAnswers s rest { s.tt with
        entries := s.tt.entries.set i (some ⟨.armed, p, s.tt.serial, hostTag, angle, d, a, m, c, 0, none⟩)
        serial := s.tt.serial + 1
        toLu := s.tt.toLu ++ (a.line?.map (fun l => TtLuMsg.referenceAdded l p)).toList }
        p tag .ok (byteOf i.val :: bytes16 s.tt.serial)))

/-- The first three checks of BOOK, in their order (R75, R76, R77): BAD_ARGUMENT with the number of the first argument out
of range; LINE_NOT_HELD where TT's copy does not show the caller owning the named line; QUOTA_REACHED with the quota
where the caller's count has reached it. A refusal changes nothing in the table. -/
def Obligations.BookIsRefusedInOrder : Prop :=
  ∀ (s : State) (p : Port) (tag : Byte) (rest : List SuTtMsg) (angle : Word) (dir act line mode : Byte)
    (dist rem : Word) (conf : Byte) (hostTag : Word),
    TableRequest s p tag (.book angle dir act line mode dist rem conf hostTag) rest →
    let faults := bookFaults dir act line mode dist rem conf
    let pulses := act = 1 ∨ act = 2
    let owns := ∀ l : Line, l.byte = line → s.tt.lineOwner.get l = some p
    (∀ n more, faults = n :: more →
      exec .book s = .next (tableAnswers s rest s.tt p tag .badArgument [byteOf n])) ∧
    (faults = [] → pulses → ¬ owns → exec .book s = .next (tableAnswers s rest s.tt p tag .lineNotHeld [])) ∧
    (faults = [] → (pulses → owns) → s.bank.quota.get p ≤ heldCount s.tt p →
      exec .book s = .next (tableAnswers s rest s.tt p tag .quotaReached [byteOf (s.bank.quota.get p)]))

/-- How AMEND, CANCEL, SUSPEND and RESUME identify their booking (R74): an index outside 0 to 63 is BAD_ARGUMENT, a FREE
entry or another serial is NO_ENTRY, another owner is NOT_OWNER, checked in that order; a refusal changes nothing. -/
def Obligations.BookingIsIdentifiedInOrder : Prop :=
  ∀ (s : State) (p : Port) (tag : Byte) (rest : List SuTtMsg) (c : Instr) (body : ReqBody) (index : Byte)
    (serial : Word), TableRequest s p tag body rest → NamesBooking c body index serial →
    (64 ≤ index.toNat → exec c s = .next (tableAnswers s rest s.tt p tag .badArgument [1])) ∧
    (∀ i : EntryIndex, i.val = index.toNat →
      (s.tt.entries[i] = none → exec c s = .next (tableAnswers s rest s.tt p tag .noEntry [])) ∧
      (∀ b, s.tt.entries[i] = some b → b.serial ≠ serial →
        exec c s = .next (tableAnswers s rest s.tt p tag .noEntry [])) ∧
      (∀ b, s.tt.entries[i] = some b → b.serial = serial → b.owner ≠ p →
        exec c s = .next (tableAnswers s rest s.tt p tag .notOwner [])))

/-- AMEND (R80, R81): a bad change set, named direction or named remaining is BAD_ARGUMENT with its number before the booking
is identified; a SPENT booking is ENTRY_SPENT; a remaining named for a ONCE booking is BAD_ARGUMENT; otherwise each
named field takes its new value, every other field stays, and OK carries the index and the serial. -/
def Obligations.AmendReplacesTheNamedFields : Prop :=
  ∀ (s : State) (p : Port) (tag : Byte) (rest : List SuTtMsg) (index : Byte) (serial : Word) (ch : Byte)
    (angle : Word) (dir : Byte) (hostTag rem : Word),
    TableRequest s p tag (.amend index serial ch angle dir hostTag rem) rest →
    (16 ≤ ch.toNat → exec .amend s = .next (tableAnswers s rest s.tt p tag .badArgument [3])) ∧
    (ch.toNat < 16 → ch.getLsbD 1 = true → 3 ≤ dir.toNat →
      exec .amend s = .next (tableAnswers s rest s.tt p tag .badArgument [5])) ∧
    (ch.toNat < 16 → (ch.getLsbD 1 = true → dir.toNat < 3) → ch.getLsbD 3 = true → remainingOk rem = false →
      exec .amend s = .next (tableAnswers s rest s.tt p tag .badArgument [7])) ∧
    (∀ (i : EntryIndex) (b : Booking), i.val = index.toNat → amendOk ch dir rem → s.tt.entries[i] = some b →
      b.serial = serial → b.owner = p →
      (b.state = .spent → exec .amend s = .next (tableAnswers s rest s.tt p tag .entrySpent [])) ∧
      (b.state ≠ .spent → b.mode = .once → ch.getLsbD 3 = true →
        exec .amend s = .next (tableAnswers s rest s.tt p tag .badArgument [7])) ∧
      (b.state ≠ .spent → (b.mode = .once → ch.getLsbD 3 = false) → ∃ b' : Booking,
        exec .amend s = .next (tableAnswers s rest { s.tt with entries := s.tt.entries.set i (some b') }
          p tag .ok (index :: bytes16 serial)) ∧
        b'.angle = (if ch.getLsbD 0 then angle else b.angle) ∧
        (ch.getLsbD 1 = true → b'.direction.byte = dir) ∧ (ch.getLsbD 1 = false → b'.direction = b.direction) ∧
        b'.tag = (if ch.getLsbD 2 then hostTag else b.tag) ∧
        (ch.getLsbD 3 = false → b'.mode = b.mode) ∧
        (ch.getLsbD 3 = true → ∀ x y, b.mode = .rearm x y → ∃ z, z.word = rem ∧ b'.mode = .rearm x z) ∧
        b'.state = b.state ∧ b'.owner = b.owner ∧ b'.serial = b.serial ∧ b'.action = b.action ∧
        b'.confidence = b.confidence ∧ b'.firedTotal = b.firedTotal ∧ b'.lastFire = b.lastFire))

/-- CANCEL, SUSPEND and RESUME of the caller's own booking (R82, R83, R84): CANCEL frees the entry from any state, with a
drop to NU where the action notifies and a reference removed to LU where it names a line; SUSPEND takes an ARMED or
RECOVERING booking to SUSPENDED with that resume state; RESUME takes a SUSPENDED booking back to it; elsewhere the
last two are WRONG_STATE with the present state. -/
def Obligations.CancelSuspendAndResume : Prop :=
  ∀ (s : State) (p : Port) (tag : Byte) (rest : List SuTtMsg) (index : Byte) (i : EntryIndex) (b : Booking),
    i.val = index.toNat → s.tt.entries[i] = some b → b.owner = p →
    let put := fun (st : BookingState) => { s.tt with entries := s.tt.entries.set i (some { b with state := st }) }
    (TableRequest s p tag (.cancel index b.serial) rest →
      exec .cancel s = .next (tableAnswers s rest { s.tt with
        entries := s.tt.entries.set i none
        toNu := s.tt.toNu ++ (if b.action.notifies then [.drop p i b.serial] else [])
        toLu := s.tt.toLu ++ (b.action.line?.map (fun l => TtLuMsg.referenceRemoved l p)).toList } p tag .ok [])) ∧
    (TableRequest s p tag (.suspend index b.serial) rest →
      (b.state = .armed → exec .suspend s = .next (tableAnswers s rest (put (.suspended .armed)) p tag .ok [])) ∧
      (b.state = .recovering →
        exec .suspend s = .next (tableAnswers s rest (put (.suspended .recovering)) p tag .ok [])) ∧
      (b.state ≠ .armed → b.state ≠ .recovering →
        exec .suspend s = .next (tableAnswers s rest s.tt p tag .wrongState [b.state.byte]))) ∧
    (TableRequest s p tag (.resume index b.serial) rest →
      (b.state = .suspended .armed → exec .resume s = .next (tableAnswers s rest (put .armed) p tag .ok [])) ∧
      (b.state = .suspended .recovering →
        exec .resume s = .next (tableAnswers s rest (put .recovering) p tag .ok [])) ∧
      ((∀ x, b.state ≠ .suspended x) →
        exec .resume s = .next (tableAnswers s rest s.tt p tag .wrongState [b.state.byte])))

/-- READ_ENTRY and LIST_OWN (R85, R86, R196, layouts of section 11.3) change nothing: the state byte alone for a FREE entry,
every field in its place, with its filler where R69 makes it absent, for any other; and the 64-place map in which
place i is set exactly when entry i is the caller's. -/
def Obligations.TableReads : Prop :=
  ∀ (s : State) (p : Port) (tag : Byte) (rest : List SuTtMsg),
    (∀ index : Byte, TableRequest s p tag (.readEntry index) rest →
      (64 ≤ index.toNat → exec .readEntry s = .next (tableAnswers s rest s.tt p tag .badArgument [1])) ∧
      (∀ i : EntryIndex, i.val = index.toNat → s.tt.entries[i] = none →
        exec .readEntry s = .next (tableAnswers s rest s.tt p tag .ok [0])) ∧
      (∀ (i : EntryIndex) (b : Booking), i.val = index.toNat → s.tt.entries[i] = some b →
        ∃ (line resume : Byte) (dist rem lastAngle lastStamp : Word),
        exec .readEntry s = .next (tableAnswers s rest s.tt p tag .ok
          ([b.state.byte, b.owner.byte] ++ bytes16 b.serial ++ bytes16 b.tag ++ bytes16 b.angle ++
            [b.direction.byte, b.action.byte, line, b.mode.byte] ++ bytes16 dist ++ bytes16 rem ++
            [b.confidence.byte, resume] ++ bytes16 b.firedTotal ++ bytes16 lastAngle ++ bytes16 lastStamp)) ∧
        (b.action.line? = none → line = 0xFF) ∧ (∀ l, b.action.line? = some l → line = l.byte) ∧
        (b.mode = .once → dist = 0 ∧ rem = 0) ∧ (∀ x y, b.mode = .rearm x y → dist = x ∧ rem = y.word) ∧
        (b.state = .suspended .armed → resume = 1) ∧ (b.state = .suspended .recovering → resume = 2) ∧
        ((∀ x, b.state ≠ .suspended x) → resume = 0xFF) ∧
        (b.lastFire = none → lastAngle = 0 ∧ lastStamp = 0) ∧
        (∀ f, b.lastFire = some f → lastAngle = f.angle ∧ lastStamp = f.stamp))) ∧
    (TableRequest s p tag .listOwn rest → ∃ map : BitVec 64,
      exec .listOwn s = .next (tableAnswers s rest s.tt p tag .ok
        ((List.range 8).map (fun k => map.extractLsb' (56 - 8 * k) 8))) ∧
      ∀ i : EntryIndex, map.getLsbD i.val = (s.tt.entries[i].map Booking.owner == some p))

/-- What TT does with a purge, a release and a line owner message (R92, R90, R87). A purge frees every entry of the port and
sends references purged, the purge mark and the done report; a release frees a SPENT entry with the carried serial,
with a reference removed where it names a line, and is otherwise ignored; a line owner message sets that line's
item of the copy. -/
def Obligations.PurgeReleaseAndLineOwner : Prop :=
  ∀ s : State, s.phase = .running →
    (∀ p rest, s.su.toTt = .purge p :: rest → ∃ e : Vector Entry 64,
      exec .purgeAtTt s = .next { s with
        su := { s.su with toTt := rest }
        tt := { s.tt with
          entries := e, toLu := s.tt.toLu ++ [.referencesPurged p]
          toNu := s.tt.toNu ++ [.purgeMark p], toSu := s.tt.toSu ++ [p] } } ∧
      ∀ i : EntryIndex, (s.tt.entries[i].map Booking.owner = some p → e[i] = none) ∧
        (s.tt.entries[i].map Booking.owner ≠ some p → e[i] = s.tt.entries[i])) ∧
    (∀ i serial rest, s.nu.toTt = ⟨i, serial⟩ :: rest →
      let out := fun (t : TriggerTable) => ({ s with nu := { s.nu with toTt := rest }, tt := t } : State)
      (∀ b, s.tt.entries[i] = some b → b.state = .spent → b.serial = serial →
        exec .releaseMessage s = .next (out { s.tt with
          entries := s.tt.entries.set i none
          toLu := s.tt.toLu ++ (b.action.line?.map (fun l => TtLuMsg.referenceRemoved l b.owner)).toList })) ∧
      ((∀ b, s.tt.entries[i] = some b → b.state = .spent → b.serial ≠ serial) →
        exec .releaseMessage s = .next (out s.tt))) ∧
    (∀ l o rest, s.lu.toTt = ⟨l, o⟩ :: rest → exec .lineOwnerMessage s = .next { s with
      lu := { s.lu with toTt := rest }, tt := { s.tt with lineOwner := s.tt.lineOwner.set l o } })

/-- A step report, entry by entry (R95 to R100, R102, R105, R106): an entry that is ARMED, crossed and admitted fires and
becomes SPENT, FREE or RECOVERING; after all firings a RECOVERING entry at its re-arm distance or farther from the
new angle becomes ARMED; every other entry stays as it is. -/
def Obligations.StepReportEntryByEntry : Prop :=
  ∀ (s : State) (r : StepReport) (rest : List StepReport), s.phase = .running → s.tl.toTt = r :: rest →
    ∃ t : TriggerTable, exec .stepReport s = .next { s with tl := { s.tl with toTt := rest }, tt := t } ∧
      t.serial = s.tt.serial ∧ t.lineOwner = s.tt.lineOwner ∧ t.toSu = s.tt.toSu ∧ t.toHp = s.tt.toHp ∧
      ∀ i : EntryIndex,
        (s.tt.entries[i] = none → t.entries[i] = none) ∧
        (∀ b, s.tt.entries[i] = some b →
          (Fires r b → lastFiring b = true → b.action.notifies = false → t.entries[i] = none) ∧
          (Fires r b → (lastFiring b = true → b.action.notifies = true) →
            t.entries[i] = some (rearmedAt r.newAngle (afterFiring r b))) ∧
          (¬ Fires r b → t.entries[i] = some (rearmedAt r.newAngle b)))

/-- What the firings of a step report send (R101, R103, R104, R105): they stand in path order, those at one distance in
index order; each that notifies sends NU a fire report, and each that pulses sends LU a pulse request, followed by a
reference removed where the firing leaves its entry FREE. Nothing else joins the two paths. -/
def Obligations.FiringsSendInPathOrder : Prop :=
  ∀ (s : State) (r : StepReport) (rest : List StepReport), s.phase = .running → s.tl.toTt = r :: rest →
    ∃ (t : TriggerTable) (order : List (EntryIndex × Booking)),
      exec .stepReport s = .next { s with tl := { s.tl with toTt := rest }, tt := t } ∧
      (∀ i b, (i, b) ∈ order ↔ s.tt.entries[i] = some b ∧ Fires r b) ∧
      order.Pairwise (fun x y => pathDistance r x.2.angle < pathDistance r y.2.angle ∨
        (pathDistance r x.2.angle = pathDistance r y.2.angle ∧ x.1 < y.1)) ∧
      t.toNu = s.tt.toNu ++ order.flatMap (fun x => if x.2.action.notifies then
        [.fire ⟨x.2.owner, x.1, x.2.serial, x.2.tag, x.2.angle, if r.sign = .neg then .rev else .fwd, r.stamp,
          r.state, lastFiring x.2⟩] else []) ∧
      t.toLu = s.tt.toLu ++ order.flatMap (fun x => match x.2.action.line? with
        | none => []
        | some l => .pulse l x.2.owner ::
          if lastFiring x.2 && !x.2.action.notifies then [.referenceRemoved l x.2.owner] else [])

/-- A step report whose ambiguity flag is set fires no entry and sends nothing; the re-arming phase still runs, measured from
the report's new angle (R100). -/
def Obligations.AmbiguousReportOnlyRearms : Prop :=
  ∀ (s : State) (r : StepReport) (rest : List StepReport), s.phase = .running → s.tl.toTt = r :: rest →
    r.ambiguous = true → ∃ e : Vector Entry 64,
      exec .stepReport s = .next { s with
        tl := { s.tl with toTt := rest }, tt := { s.tt with entries := e } } ∧
      ∀ i : EntryIndex, e[i] = s.tt.entries[i].map (rearmedAt r.newAngle)

/-! ## Notice Unit -/

namespace Sys2Proof.Claims

/-- NU with port p's record put to r and its queue changed: ATNp_N is low exactly while the queue holds a notice (R130),
and HPp is sent the queue's length where that is another than before (R131). -/
def withQueue (n : NoticeUnit) (p : Port) (r : NoticePort) : NoticeUnit :=
  { n with
    ports := n.ports.set p { r with atnLow := decide (r.queue ≠ []) }
    toHp := n.toHp.set p (n.toHp.get p ++
      if r.queue.length = (n.ports.get p).queue.length then [] else [.queueLength r.queue.length]) }

/-- A record with one more notice at the tail of its queue, numbered in sequence (R115, R116). -/
def posted (r : NoticePort) (x : Notice) : NoticePort :=
  { r with queue := r.queue ++ [⟨r.seq, x⟩], seq := r.seq + 1 }

/-- The release message of a posted FIRED notice whose final flag is set (R126). -/
def releaseOf (f : Fired) : List Release := if f.final then [⟨f.index, f.serial⟩] else []

/-- What a report that calls for notice x does to one port (R116, R118, R119): from port record r and path h to r' and
h'. `wanted` says that the port subscribes to the kind, or is the port granted. -/
def Given (wanted : Prop) (x : Notice) (r r' : NoticePort) (h h' : List NuHpMsg) : Prop :=
  (¬ (r.opened = true ∧ wanted) → r' = r ∧ h' = h) ∧
    (r.opened = true → wanted → r.queue.length < 16 →
      r' = { posted r x with atnLow := true } ∧ h' = h ++ [.queueLength (r.queue.length + 1)]) ∧
    (r.opened = true → wanted → 16 ≤ r.queue.length → r' = { r with summaryOwed := true } ∧ h' = h)

/-- NU after a report that calls for notice x: the copies as given, each port served, nothing else changed. -/
def Reported (n n' : NoticeUnit) (c : NoticeCopies) (wants : Port → NoticePort → Prop) (x : Notice) : Prop :=
  n'.copies = c ∧ n'.toTt = n.toTt ∧ n'.toSu = n.toSu ∧
    ∀ p, Given (wants p (n.ports.get p)) x (n.ports.get p) (n'.ports.get p) (n.toHp.get p) (n'.toHp.get p)

end Sys2Proof.Claims

/-- A fire report (R114, R116, R117, R126): it sets the last stamp copy; for a closed port it does nothing more; for an open
port with room it posts a FIRED notice with count 1, and a release where the firing was final; with the queue full it
is kept as the one owed item of its index, or merged into the item that stands there. The owed list is in index order
beforehand, as NU keeps it. -/
def Obligations.FireReportIsPostedOwedOrMerged : Prop :=
  ∀ (s : State) (f : FireReport) (rest : List TtNuMsg), s.phase = .running → s.tt.toNu = .fire f :: rest →
    let r := s.nu.ports.get f.port
    let n := { s.nu with copies := { s.nu.copies with lastStamp := f.stamp } }
    let new : Fired := ⟨f.index, f.serial, f.tag, 1, f.angle, f.passage, f.stamp, f.state, f.final⟩
    let out := fun (n' : NoticeUnit) => ({ s with tt := { s.tt with toNu := rest }, nu := n' } : State)
    r.owed.Pairwise (fun a b => a.index < b.index) →
    (r.opened = false → exec .fireReport s = .next (out n)) ∧
    (r.opened = true → r.queue.length < 16 → exec .fireReport s = .next (out
      { withQueue n f.port (posted r (.fired new)) with toTt := s.nu.toTt ++ releaseOf new })) ∧
    (r.opened = true → 16 ≤ r.queue.length → ∃ owed : List Fired,
      exec .fireReport s = .next (out { n with ports := s.nu.ports.set f.port { r with owed := owed } }) ∧
      owed.Pairwise (fun a b => a.index < b.index) ∧
      ((∀ x ∈ r.owed, x.index ≠ f.index) → ∀ y, y ∈ owed ↔ y ∈ r.owed ∨ y = new) ∧
      (∀ x ∈ r.owed, x.index = f.index →
        let merged : Fired := if x.serial = f.serial then
          { new with tag := x.tag, count := if x.count = 255 then 255 else x.count + 1, final := x.final || f.final }
          else new
        ∀ y, y ∈ owed ↔ (y ∈ r.owed ∧ y ≠ x) ∨ y = merged))

/-- Health, loop, overspeed, activation and lease reports (R114, R118 to R123): each updates NU's copies, and gives its
notice to every open port that subscribes to its kind, or, for a grant, to the new holder, posted where the queue has
room and owed as a summary where it is full. -/
def Obligations.ReportsBecomeNotices : Prop :=
  ∀ s : State, s.phase = .running →
    let c := s.nu.copies
    (∀ a ch st rest, s.si.toNu = ⟨a, ch, st⟩ :: rest → ∃ n,
      exec .healthReport s = .next { s with si := { s.si with toNu := rest }, nu := n } ∧
      Reported s.nu n { c with active := a, lastStamp := st } (fun _ r => r.subs.health = true) (.health a ch st)) ∧
    (∀ old new cause st e rest, s.tl.toNu = .loop old new cause st e :: rest → ∃ n,
      exec .loopReport s = .next { s with tl := { s.tl with toNu := rest }, nu := n } ∧
      Reported s.nu n { c with loopState := new, step := e, lastStamp := st } (fun _ r => r.subs.loop = true)
        (.loop old new cause st)) ∧
    (∀ v st rest, s.tl.toNu = .overspeed v st :: rest → ∃ n,
      exec .overspeedReport s = .next { s with tl := { s.tl with toNu := rest }, nu := n } ∧
      Reported s.nu n { c with lastStamp := st } (fun _ r => r.subs.overspeed = true) (.overspeed v st)) ∧
    (∀ bank rest, s.cu.toNu = .activation bank :: rest → ∃ n,
      exec .activationReport s = .next { s with cu := { s.cu with toNu := rest }, nu := n } ∧
      Reported s.nu n { c with bank := bank } (fun _ r => r.subs.activated = true)
        (.activated bank c.lastStamp)) ∧
    (∀ holder grant rest, s.cu.toNu = .lease holder grant :: rest → ∃ n,
      exec .leaseReport s = .next { s with cu := { s.cu with toNu := rest }, nu := n } ∧
      Reported s.nu n { c with holder := holder } (fun p _ => grant = true ∧ holder = some p) .leaseGranted)

/-- A drop message (R127) removes the owed item of that index and serial where the port is open and one stands, and is
ignored otherwise; the queue, the summary-owed flag and everything else stay. -/
def Obligations.DropRemovesTheOwedItem : Prop :=
  ∀ (s : State) (p : Port) (i : EntryIndex) (serial : Word) (rest : List TtNuMsg),
    s.phase = .running → s.tt.toNu = .drop p i serial :: rest →
    let r := s.nu.ports.get p
    let out := fun (n : NoticeUnit) => ({ s with tt := { s.tt with toNu := rest }, nu := n } : State)
    (∀ before x after, r.opened = true → r.owed = before ++ x :: after → x.index = i → x.serial = serial →
      (before ++ x :: after).Pairwise (fun a b => a.index < b.index) →
      exec .dropMessage s = .next (out
        { s.nu with ports := s.nu.ports.set p { r with owed := before ++ after } })) ∧
    (r.opened = true → (∀ x ∈ r.owed, ¬ (x.index = i ∧ x.serial = serial)) →
      exec .dropMessage s = .next (out s.nu)) ∧
    (r.opened = false → exec .dropMessage s = .next (out s.nu))

namespace Sys2Proof.Claims

/-- A number in k bytes, high byte first (R196). -/
def big (k n : Nat) : List Byte := (List.range k).reverse.map (fun i => BitVec.ofNat 8 (n / 256 ^ i))

/-- The number of a loop state: HALTED 0, ACQUIRE 1, TRACK 2, COAST 3, LOST 4 (section 11.6). -/
def loopNumber : LoopState → Byte
  | .halted => 0
  | .acquire => 1
  | .track => 2
  | .coast => 3
  | .lost => 4

/-- The number of a loop cause (section 11.6). -/
def loopCauseNumber : LoopCause → Byte
  | .start => 0
  | .halt => 1
  | .relock => 2
  | .locked => 3
  | .healthLost => 4
  | .recovered => 5
  | .coastLimit => 6
  | .ambiguousStep => 7

/-- A flag: 0 clear, 1 set (section 11.6). -/
def flagNumber (b : Bool) : Byte := if b then 1 else 0

/-- A health cause set: bit 0 FRONT_END, bit 1 LOW_AMPLITUDE, bit 2 SATURATED, bit 3 STALE (section 11.6). -/
def causeSetNumber (c : CauseSet) : Byte :=
  flagNumber c.frontEnd + 2 * flagNumber c.lowAmplitude + 4 * flagNumber c.saturated + 8 * flagNumber c.stale

/-- The number of a bank. -/
def bankNumber (b : BankId) : Byte := if b = .bank0 then 0 else 1

/-- The record of each kind of notice with the sequence number given: kind code, sequence number, and the fields of its row
(section 11.5), high bytes first and a velocity in two's complement (R196). -/
def recordOf (seq : Byte) : Notice → List Byte
  | .fired f => [0x01, seq, BitVec.ofNat 8 f.index.val] ++ big 2 f.serial.toNat ++ big 2 f.tag.toNat ++ [f.count] ++
      big 2 f.angle.toNat ++ [if f.passage = .fwd then 0 else 1] ++ big 2 f.stamp.toNat ++
      [if f.state = .track then 2 else 3, flagNumber f.final]
  | .loop old new cause stamp =>
      [0x02, seq, loopNumber old, loopNumber new, loopCauseNumber cause] ++ big 2 stamp.toNat
  | .health active changed stamp => [0x03, seq, causeSetNumber active, causeSetNumber changed] ++ big 2 stamp.toNat
  | .overspeed velocity stamp => [0x04, seq] ++ big 3 (velocity % 16777216).toNat ++ big 2 stamp.toNat
  | .activated bank stamp => [0x05, seq, bankNumber bank] ++ big 2 stamp.toNat
  | .leaseGranted => [0x06, seq]
  | .summary loop step active leaseHeld bank stamp =>
      [0x07, seq, loopNumber loop, BitVec.ofNat 8 step.val, causeSetNumber active, flagNumber leaseHeld,
        bankNumber bank] ++ big 2 stamp.toNat

end Sys2Proof.Claims

/-- NOTICE_POP (R124, R125, R126, R131): QUEUE_EMPTY on an empty queue; otherwise the head notice is removed and answered
with the record of its kind, byte by byte as section 11.5 gives it, and in the same happening the SUMMARY is posted if one
is owed, else the lowest owed item, with its release if final, else nothing. A change of the length is sent to HPp ahead
of the response. -/
def Obligations.NoticePopPostsWhatIsOwed : Prop :=
  ∀ (s : State) (p : Port) (tag : Byte) (rest : List SuNuMsg), s.phase = .running →
    s.su.toNu = .request ⟨p, tag, .noticePop⟩ :: rest →
    let r := s.nu.ports.get p
    let c := s.nu.copies
    let answered := fun (n : NoticeUnit) (st : Status) (payload : List Byte) => ({ s with
      su := { s.su with toNu := rest }
      nu := { n with toHp := n.toHp.set p (n.toHp.get p ++ [.response ⟨st, tag, payload⟩]) } } : State)
    (r.queue = [] → exec .noticePop s = .next (answered s.nu .queueEmpty [])) ∧
    (∀ head more, r.queue = head :: more → let record := recordOf head.seq head.notice
      (r.summaryOwed = true → exec .noticePop s = .next (answered
        (withQueue s.nu p { posted { r with queue := more } (.summary c.loopState c.step c.active
          (decide (c.holder = some p)) c.bank c.lastStamp) with summaryOwed := false }) .ok record)) ∧
      (∀ f owed, r.summaryOwed = false → r.owed = f :: owed → exec .noticePop s = .next (answered
        { withQueue s.nu p { posted { r with queue := more } (.fired f) with owed := owed } with
          toTt := s.nu.toTt ++ releaseOf f } .ok record)) ∧
      (r.summaryOwed = false → r.owed = [] → exec .noticePop s = .next (answered
        (withQueue s.nu p { r with queue := more }) .ok record)))

/-- The opening and the closing of a port at NU (R128, R129, R130): open p gives a fresh record under the new subscriptions;
close p empties and closes it; of the close and TT's purge mark, the first taken is remembered and the second sends SU
the done report. -/
def Obligations.PortOpenedClosedAndMarked : Prop :=
  ∀ (s : State) (p : Port), s.phase = .running →
    let r := s.nu.ports.get p
    let closed := { r with
      opened := false, subs := ⟨false, false, false, false⟩, queue := [], owed := [], summaryOwed := false }
    let fromSu := fun (rest : List SuNuMsg) (n : NoticeUnit) =>
      ({ s with su := { s.su with toNu := rest }, nu := n } : State)
    let fromTt := fun (rest : List TtNuMsg) (n : NoticeUnit) =>
      ({ s with tt := { s.tt with toNu := rest }, nu := n } : State)
    (∀ subs rest, s.su.toNu = .openPort p subs :: rest → exec .openAtNu s = .next (fromSu rest
      (withQueue s.nu p ⟨true, subs, [], [], false, 0, false, false, false⟩))) ∧
    (∀ rest, s.su.toNu = .closePort p :: rest →
      (r.markTaken = true → exec .closeAtNu s = .next (fromSu rest
        { withQueue s.nu p { closed with markTaken := false } with toSu := s.nu.toSu ++ [p] })) ∧
      (r.markTaken = false → exec .closeAtNu s = .next (fromSu rest
        (withQueue s.nu p { closed with markAwaited := true })))) ∧
    (∀ rest, s.tt.toNu = .purgeMark p :: rest →
      (r.opened = true → exec .purgeMark s = .next (fromTt rest
        { s.nu with ports := s.nu.ports.set p { r with markTaken := true } })) ∧
      (r.opened = false → r.markAwaited = true → exec .purgeMark s = .next (fromTt rest
        { s.nu with ports := s.nu.ports.set p { r with markAwaited := false }, toSu := s.nu.toSu ++ [p] })))

/-! ## Line Unit -/

namespace Sys2Proof.Claims

/-- The next message on SU → LU is this request, and the device runs. -/
def LineRequest (s : State) (p : Port) (tag : Byte) (body : ReqBody) (rest : List SuLuMsg) : Prop :=
  s.phase = .running ∧ s.su.toLu = .request ⟨p, tag, body⟩ :: rest

/-- The next state in which LU has taken its request, stands as `u`, and has sent port p one response. -/
def lineAnswers (s : State) (rest : List SuLuMsg) (u : LineUnit) (p : Port) (tag : Byte) (st : Status)
    (payload : List Byte) : State :=
  { s with su := { s.su with toLu := rest }, lu := { u with toHp := u.toHp.push p ⟨st, tag, payload⟩ } }

/-- The level driven on a pin while its line is IDLE, and while it is PULSING (R133). -/
def inactive : Polarity → PinDrive
  | .activeHigh => .low
  | .activeLow => .high

def active : Polarity → PinDrive
  | .activeHigh => .high
  | .activeLow => .low

/-- Port p owns a line. -/
def Owns (p : Port) (r : LineRecord) : Prop := r.state = .idle p ∨ ∃ e, r.state = .pulsing p e

/-- A line's record after a strike for its owner at tick `now` (R139): the pulse ends one width later; a strike that
finds a pulse running is counted as merged. -/
def struck (now : Nat) (p : Port) (r : LineRecord) : LineRecord :=
  { r with
    state := .pulsing p (now + r.width.toNat), pin := active r.polarity
    merged := if r.state = .idle p then r.merged else satAdd16 r.merged 1 }

/-- A line's record after its release (R138): polarity, width, merged count and the reference counts stay. -/
def released (r : LineRecord) : LineRecord := { r with state := .unowned, pin := .undriven }

/-- A command and its request that name a line, and nothing the line check of R134 has yet to look at. -/
def NamesLine (c : Instr) (body : ReqBody) (line : Byte) : Prop :=
  (∃ pol width, c = .lineClaim ∧ body = .lineClaim line pol width) ∨ (c = .lineRelease ∧ body = .lineRelease line) ∨
    (c = .linePulse ∧ body = .linePulse line) ∨ (c = .lineStatus ∧ body = .lineStatus line)

end Sys2Proof.Claims

/-- LINE_CLAIM (R134, R135, R136): line, polarity and width are judged in that order; an UNOWNED line goes to the caller,
IDLE at the new inactive level with its merged count 0, and TT is told; the owner of an IDLE line sets width and
polarity; the owner of a PULSING line sets its width alone, and is refused another polarity; another owner's line is
refused with LINE_HELD. -/
def Obligations.ClaimOfALine : Prop :=
  ∀ (s : State) (p : Port) (tag : Byte) (rest : List SuLuMsg) (line polByte width : Byte),
    LineRequest s p tag (.lineClaim line polByte width) rest →
    let out := lineAnswers s rest
    (4 ≤ line.toNat → exec .lineClaim s = .next (out s.lu p tag .badArgument [1])) ∧
    (line.toNat < 4 → 2 ≤ polByte.toNat → exec .lineClaim s = .next (out s.lu p tag .badArgument [2])) ∧
    (line.toNat < 4 → polByte.toNat < 2 → width = 0 →
      exec .lineClaim s = .next (out s.lu p tag .badArgument [3])) ∧
    (∀ (l : Line) (pol : Polarity), l.byte = line → pol.byte = polByte → width ≠ 0 →
      let r := s.lu.lines.get l
      let put := fun (r' : LineRecord) => { s.lu with lines := s.lu.lines.set l r' }
      (r.state = .unowned → exec .lineClaim s = .next (out
        { put { r with state := .idle p, polarity := pol, width := width, merged := 0, pin := inactive pol } with
          toTt := s.lu.toTt ++ [⟨l, some p⟩] } p tag .ok [1])) ∧
      (r.state = .idle p → exec .lineClaim s = .next (out
        (put { r with polarity := pol, width := width, pin := inactive pol }) p tag .ok [1])) ∧
      (∀ e, r.state = .pulsing p e → pol = r.polarity →
        exec .lineClaim s = .next (out (put { r with width := width }) p tag .ok [2])) ∧
      (∀ e, r.state = .pulsing p e → pol ≠ r.polarity →
        exec .lineClaim s = .next (out s.lu p tag .wrongState [])) ∧
      (∀ q, q ≠ p → Owns q r → exec .lineClaim s = .next (out s.lu p tag .lineHeld [q.byte])))

/-- Pulses (R139, R140, R141): a pulse request that names the line's owner, or the owner's LINE_PULSE, starts a pulse of one
width or extends the running one, counting the merge; a request for any other port is discarded, a LINE_PULSE refused;
the end of a pulse returns the line to IDLE at its inactive level. That the pulse timer expires at the tick after the
pulse end, and not at it, is DEDUCED from R198 (notes/assumptions/6.md), and that the command moves the timebase to that
tick, where no other timer's tick comes before it, is a DESIGN CHOICE (notes/assumptions/2.md). -/
def Obligations.PulsesStartExtendAndEnd : Prop :=
  ∀ (s : State) (l : Line) (p : Port), s.phase = .running →
    let r := s.lu.lines.get l
    let put := fun (r' : LineRecord) => { s.lu with lines := s.lu.lines.set l r' }
    (∀ rest, s.tt.toLu = .pulse l p :: rest →
      let out := fun (u : LineUnit) => ({ s with tt := { s.tt with toLu := rest }, lu := u } : State)
      (Owns p r → exec .pulseRequest s = .next (out (put (struck s.now p r)))) ∧
      (¬ Owns p r → exec .pulseRequest s = .next (out s.lu))) ∧
    (∀ tag rest, LineRequest s p tag (.linePulse l.byte) rest →
      (Owns p r → exec .linePulse s = .next (lineAnswers s rest (put (struck s.now p r)) p tag .ok [2])) ∧
      (¬ Owns p r → exec .linePulse s = .next (lineAnswers s rest s.lu p tag .lineNotHeld []))) ∧
    (∀ e, r.state = .pulsing p e → Comes s (e + 1) → exec (.pulseEnd l) s = .next { s with
      now := max s.now (e + 1), lu := put { r with state := .idle p, pin := inactive r.polarity } })

/-- LINE_RELEASE and LINE_STATUS, and the line check they share with LINE_CLAIM and LINE_PULSE (R134, R136, R138, R144): a line
argument above 3 is BAD_ARGUMENT; a release is refused to a port that does not own the line, and to an owner whose
reference count is above 0; otherwise the line is UNOWNED, undriven and without a timer, and TT is told; LINE_STATUS
answers the record and changes nothing. -/
def Obligations.ReleaseAndStatusOfALine : Prop :=
  ∀ (s : State) (p : Port) (tag : Byte) (rest : List SuLuMsg),
    (∀ c body line, NamesLine c body line → LineRequest s p tag body rest → 4 ≤ line.toNat →
      exec c s = .next (lineAnswers s rest s.lu p tag .badArgument [1])) ∧
    (∀ l : Line,
      let r := s.lu.lines.get l
      (LineRequest s p tag (.lineRelease l.byte) rest →
        (¬ Owns p r → exec .lineRelease s = .next (lineAnswers s rest s.lu p tag .lineNotHeld [])) ∧
        (Owns p r → 0 < r.refs.get p →
          exec .lineRelease s = .next (lineAnswers s rest s.lu p tag .lineInUse [byteOf (r.refs.get p)])) ∧
        (Owns p r → r.refs.get p = 0 → exec .lineRelease s = .next (lineAnswers s rest
          { s.lu with lines := s.lu.lines.set l (released r), toTt := s.lu.toTt ++ [⟨l, none⟩] } p tag .ok []))) ∧
      (LineRequest s p tag (.lineStatus l.byte) rest → ∃ (owner polarity state : Byte),
        exec .lineStatus s = .next (lineAnswers s rest s.lu p tag .ok
          ([owner, polarity, r.width, state] ++ bytes16 r.merged)) ∧
        (r.state = .unowned → owner = 0xFF ∧ state = 0) ∧ (∀ q, r.state = .idle q → owner = q.byte ∧ state = 1) ∧
        (∀ q e, r.state = .pulsing q e → owner = q.byte ∧ state = 2) ∧
        (r.polarity = .activeHigh → polarity = 0) ∧ (r.polarity = .activeLow → polarity = 1)))

/-- Reference counts and the teardown exchange (R136, R137, R142): a reference added or removed moves one count by one, not
below 0; references purged sets the port's four counts to 0; release-all releases every line the port owns, telling TT
in line order; of the two, the first taken sets the port's mark, and the second clears it and sends SU the done
report. -/
def Obligations.ReferencesAndTheTeardownExchange : Prop :=
  ∀ (s : State) (p : Port), s.phase = .running →
    let fromTt := fun (rest : List TtLuMsg) (u : LineUnit) =>
      ({ s with tt := { s.tt with toLu := rest }, lu := u } : State)
    (∀ l rest, let r := s.lu.lines.get l
      let put := fun (n : Nat) => { s.lu with lines := s.lu.lines.set l { r with refs := r.refs.set p n } }
      (s.tt.toLu = .referenceAdded l p :: rest →
        exec .referenceAdded s = .next (fromTt rest (put (r.refs.get p + 1)))) ∧
      (s.tt.toLu = .referenceRemoved l p :: rest →
        exec .referenceRemoved s = .next (fromTt rest (put (r.refs.get p - 1))))) ∧
    (∀ rest, s.tt.toLu = .referencesPurged p :: rest → ∃ lines : PerLine LineRecord,
      (∀ l, lines.get l = { s.lu.lines.get l with refs := (s.lu.lines.get l).refs.set p 0 }) ∧
      (s.lu.marks.get p = .releaseAllTaken → exec .referencesPurged s = .next (fromTt rest
        { s.lu with lines := lines, marks := s.lu.marks.set p .clear, toSu := s.lu.toSu ++ [p] })) ∧
      (s.lu.marks.get p = .clear → exec .referencesPurged s = .next (fromTt rest
        { s.lu with lines := lines, marks := s.lu.marks.set p .referencesPurgedTaken }))) ∧
    (∀ rest, s.su.toLu = .releaseAll p :: rest → ∃ lines : PerLine LineRecord,
      let told := { s.lu with
        lines := lines
        toTt := s.lu.toTt ++ ([Line.trg0, .trg1, .trg2, .trg3].filter
          (fun l => (s.lu.lines.get l).state.owner == some p)).map (fun l => (⟨l, none⟩ : LineOwner)) }
      let out := fun (u : LineUnit) => ({ s with su := { s.su with toLu := rest }, lu := u } : State)
      (∀ l, (Owns p (s.lu.lines.get l) → lines.get l = released (s.lu.lines.get l)) ∧
        (¬ Owns p (s.lu.lines.get l) → lines.get l = s.lu.lines.get l)) ∧
      (s.lu.marks.get p = .referencesPurgedTaken → exec .releaseAll s = .next (out
        { told with marks := s.lu.marks.set p .clear, toSu := s.lu.toSu ++ [p] })) ∧
      (s.lu.marks.get p = .clear → exec .releaseAll s = .next (out
        { told with marks := s.lu.marks.set p .releaseAllTaken })))

/-! ## Session Unit -/

namespace Sys2Proof.Claims

/-- The next message on HPp → SU is this request of port p, and the device runs. -/
def PortRequest (s : State) (p : Port) (tag : Byte) (body : ReqBody) (rest : List Request) : Prop :=
  s.phase = .running ∧ (s.hp.get p).toSu = ⟨p, tag, body⟩ :: rest

/-- The next state in which SU has taken the request of port p and stands as `u`. Nothing else has changed. -/
def suTook (s : State) (p : Port) (rest : List Request) (u : SessionUnit) : State :=
  { s with hp := s.hp.set p { s.hp.get p with toSu := rest }, su := u }

/-- SU with messages put on its path to port p, in the order given. -/
def tells (u : SessionUnit) (p : Port) (m : List SuHpMsg) : SessionUnit :=
  { u with toHp := u.toHp.set p (u.toHp.get p ++ m) }

/-- SU with port p's record replaced. -/
def withSession (u : SessionUnit) (p : Port) (r : Session) : SessionUnit := { u with sessions := u.sessions.set p r }

/-- The session timer restarted now: stopped for a timeout of 0, else its expiry tick (R149, R198). -/
def restarted (now : Nat) (timeout : Word) : Option Nat :=
  if timeout = 0 then none else some (now + 1000 * timeout.toNat + 1)

/-- SU after it has heard a request of an OPEN session: the session timer is restarted (R149). -/
def heard (u : SessionUnit) (now : Nat) (p : Port) : SessionUnit :=
  withSession u p { u.sessions.get p with timer := restarted now (u.sessions.get p).timeout }

/-- The epoch of the session that opens next (R146). -/
def epochAfter (e : BitVec 8) : BitVec 8 := if e = 255 then 1 else e + 1

/-- SU after port p's session has opened (R151): epoch message and response, record, and the two open messages. -/
def sessionOpened (u : SessionUnit) (now : Nat) (p : Port) (tag : Byte) (timeout : Word) (subs : Subscriptions) :
    SessionUnit :=
  let r := u.sessions.get p
  let e := epochAfter r.epoch
  { tells (withSession u p { r with
      state := .opened, epoch := e, timeout := timeout, timer := restarted now timeout, held := none })
      p [.epoch e, .response ⟨.ok, tag, [e, p.byte]⟩] with
    toNu := u.toNu ++ [.openPort p subs], toSi := u.toSi ++ [.openPort p] }

/-- SU after the teardown of port p has begun (R156), with the held JOIN given. -/
def tornDown (u : SessionUnit) (p : Port) (cause : CloseCause) (held : Option HeldJoin) : SessionUnit :=
  { withSession u p { u.sessions.get p with
      state := .closing, lastCause := cause, timer := none, awaited := ⟨true, true, true, true, true⟩, held := held } with
    toTt := u.toTt ++ [.purge p], toNu := u.toNu ++ [.closePort p], toSi := u.toSi ++ [.closePort p]
    toCu := u.toCu ++ [.purge p] }

/-- The commands by which SU takes a request: FORWARD_REQUEST for those it owns nothing of, and its own five. -/
def SuTakes (c : Instr) (p : Port) (body : ReqBody) : Prop :=
  c = .forwardRequest p ∨ (∃ t x, c = .join p ∧ body = .join t x) ∨ (c = .leave p ∧ body = .leave) ∨
    (c = .ping p ∧ body = .ping)

/-- A done report for port p at the head of a block's path to SU, and the state with it taken off (R157). -/
def DoneNext (s : State) (block : Block) (p : Port) (s' : State) : Prop :=
  s.phase = .running ∧
    ((block = .si ∧ ∃ rest, s.si.toSu = p :: rest ∧ s' = { s with si := { s.si with toSu := rest } }) ∨
      (block = .tt ∧ ∃ rest, s.tt.toSu = p :: rest ∧ s' = { s with tt := { s.tt with toSu := rest } }) ∨
      (block = .nu ∧ ∃ rest, s.nu.toSu = p :: rest ∧ s' = { s with nu := { s.nu with toSu := rest } }) ∨
      (block = .lu ∧ ∃ rest, s.lu.toSu = p :: rest ∧ s' = { s with lu := { s.lu with toSu := rest } }) ∨
      (block = .cu ∧ ∃ rest, s.cu.toSu = p :: rest ∧ s' = { s with cu := { s.cu with toSu := rest } }))

end Sys2Proof.Claims

/-- The session gate (R147): a CLOSED port is refused every request but JOIN, HOST_STATUS and NOP with NOT_JOINED, a CLOSING
port every request but HOST_STATUS and NOP with CLOSING. A refusal has no payload, changes nothing and forwards
nothing. -/
def Obligations.GateRefusesByTheSessionState : Prop :=
  ∀ (s : State) (c : Instr) (p : Port) (tag : Byte) (body : ReqBody) (rest : List Request),
    PortRequest s p tag body rest → SuTakes c p body → body ≠ .hostStatus → body ≠ .nop →
    let refused := fun (st : Status) => suTook s p rest (tells s.su p [.response ⟨st, tag, []⟩])
    ((s.su.sessions.get p).state = .closed → (∀ t x, body ≠ .join t x) → exec c s = .next (refused .notJoined)) ∧
    ((s.su.sessions.get p).state = .closing → exec c s = .next (refused .closing))

/-- FORWARD_REQUEST from an OPEN session (R148, R149): the session timer is restarted, and the request goes to its owner with
its port, by the table of R148. Nothing else changes. -/
def Obligations.RequestIsForwardedToItsOwner : Prop :=
  ∀ (s : State) (p : Port) (tag : Byte) (body : ReqBody) (rest : List Request),
    PortRequest s p tag body rest → (s.su.sessions.get p).state = .opened →
    let r : Request := ⟨p, tag, body⟩
    let u := heard s.su s.now p
    let goes := fun (u' : SessionUnit) => exec (.forwardRequest p) s = .next (suTook s p rest u')
    (body = .readHealth ∨ body = .ackHealth ∨ body = .readCounters →
      goes { u with toSi := s.su.toSi ++ [.request r] }) ∧
    (body = .readAngle ∨ body = .readLoop → goes { u with toTl := s.su.toTl ++ [r] }) ∧
    ((∃ a d x l m y z c t, body = .book a d x l m y z c t) ∨ (∃ i n ch a d t z, body = .amend i n ch a d t z) ∨
      (∃ i n, body = .cancel i n ∨ body = .suspend i n ∨ body = .resume i n ∨ body = .readEntry i) ∨
      body = .listOwn → goes { u with toTt := s.su.toTt ++ [.request r] }) ∧
    (body = .noticePop → goes { u with toNu := s.su.toNu ++ [.request r] }) ∧
    ((∃ l q w, body = .lineClaim l q w ∨ body = .lineRelease l ∨ body = .linePulse l ∨ body = .lineStatus l) →
      goes { u with toLu := s.su.toLu ++ [.request r] }) ∧
    ((∃ w f v k, body = .leaseTake w ∨ body = .paramWrite f v ∨ body = .paramRead k f) ∨ body = .leaseDrop ∨
      body = .leaseCancel ∨ body = .paramCopy ∨ body = .activate ∨ body = .start ∨ body = .halt ∨ body = .relock ∨
      body = .countersClear → goes { u with toCu := s.su.toCu ++ [.request r] })

/-- JOIN (R146, R149, R151, R152, R156): a timeout above 1000 and then a subscription set with a bit above bit 3 are
BAD_ARGUMENT, which in OPEN restarts the timer all the same; a good JOIN opens a session on a CLOSED port, and on an OPEN
one is held without a response while the teardown with cause REJOINED begins. -/
def Obligations.JoinOpensOrRejoins : Prop :=
  ∀ (s : State) (p : Port) (tag : Byte) (timeout : Word) (subs : Byte) (rest : List Request),
    PortRequest s p tag (.join timeout subs) rest →
    let r := s.su.sessions.get p
    let bad := fun (u : SessionUnit) (n : Byte) => exec (.join p) s =
      .next (suTook s p rest (tells u p [.response ⟨.badArgument, tag, [n]⟩]))
    let chosen : Subscriptions := ⟨subs.getLsbD 0, subs.getLsbD 1, subs.getLsbD 2, subs.getLsbD 3⟩
    (r.state = .closed → 1000 < timeout.toNat → bad s.su 1) ∧
    (r.state = .closed → timeout.toNat ≤ 1000 → 16 ≤ subs.toNat → bad s.su 2) ∧
    (r.state = .closed → timeout.toNat ≤ 1000 → subs.toNat < 16 →
      exec (.join p) s = .next (suTook s p rest (sessionOpened s.su s.now p tag timeout chosen))) ∧
    (r.state = .opened → 1000 < timeout.toNat → bad (heard s.su s.now p) 1) ∧
    (r.state = .opened → timeout.toNat ≤ 1000 → 16 ≤ subs.toNat → bad (heard s.su s.now p) 2) ∧
    (r.state = .opened → timeout.toNat ≤ 1000 → subs.toNat < 16 →
      exec (.join p) s = .next (suTook s p rest (tornDown s.su p .rejoined (some ⟨timeout, chosen, tag⟩))))

/-- LEAVE, the session timer's expiry, PING, NOP and HOST_STATUS (R149, R150, R153 to R156): LEAVE and the expiry begin the
teardown of an OPEN session, LEAVE answering OK at once; PING, NOP and HOST_STATUS restart the timer of an OPEN session
and answer from the record; NOP and HOST_STATUS are answered in CLOSED and CLOSING too, and change nothing there. The
expiry is taken at its tick (R198); that the command moves the timebase there, where no other timer's tick comes before
it, is a DESIGN CHOICE (notes/assumptions/2.md). -/
def Obligations.SessionsEndAndAnswer : Prop :=
  ∀ (s : State) (p : Port) (tag : Byte) (rest : List Request),
    let r := s.su.sessions.get p
    let answered := fun (u : SessionUnit) (payload : List Byte) =>
      suTook s p rest (tells u p [.response ⟨.ok, tag, payload⟩])
    (PortRequest s p tag .leave rest → r.state = .opened →
      exec (.leave p) s = .next (answered (tornDown s.su p .left r.held) [])) ∧
    (∀ e, s.phase = .running → r.state = .opened → r.timer = some e → Comes s e →
      exec (.sessionTimerExpiry p) s =
        .next { s with now := max s.now e, su := tornDown s.su p .expired r.held }) ∧
    (PortRequest s p tag .ping rest → r.state = .opened →
      exec (.ping p) s = .next (answered (heard s.su s.now p) (1 :: bytes16 r.timeout))) ∧
    (PortRequest s p tag .nop rest →
      (r.state = .opened → exec (.nop p) s = .next (answered (heard s.su s.now p) [])) ∧
      (r.state ≠ .opened → exec (.nop p) s = .next (answered s.su []))) ∧
    (PortRequest s p tag .hostStatus rest → ∃ state cause : Byte,
      (r.state = .opened → exec (.hostStatus p) s = .next (answered (heard s.su s.now p) [state, r.epoch, cause])) ∧
      (r.state ≠ .opened → exec (.hostStatus p) s = .next (answered s.su [state, r.epoch, cause])) ∧
      (r.state = .closed → state = 0) ∧ (r.state = .opened → state = 1) ∧ (r.state = .closing → state = 2) ∧
      (r.lastCause = .reset → cause = 0) ∧ (r.lastCause = .left → cause = 1) ∧
      (r.lastCause = .expired → cause = 2) ∧ (r.lastCause = .rejoined → cause = 3))

/-- Done reports (R157): one that is not awaited is ignored; one that is awaited leaves the set, TT's setting off the
release-all to LU; the last one closes the session, or opens the new session of a held JOIN. -/
def Obligations.DoneReportsCompleteTheTeardown : Prop :=
  ∀ (s s' : State) (block : Block) (p : Port), DoneNext s block p s' →
    let r := s.su.sessions.get p
    let left := r.awaited.without block
    let u := { s.su with toLu := s.su.toLu ++ if block = .tt then [.releaseAll p] else [] }
    let taken := fun (u' : SessionUnit) => exec (.doneReport block) s = .next { s' with su := u' }
    (¬ (r.state = .closing ∧ r.awaited.has block = true) → taken s.su) ∧
    (r.state = .closing → r.awaited.has block = true →
      (left ≠ ⟨false, false, false, false, false⟩ → taken (withSession u p { r with awaited := left })) ∧
      (left = ⟨false, false, false, false, false⟩ → r.held = none →
        taken (withSession u p { r with awaited := left, state := .closed })) ∧
      (∀ j, left = ⟨false, false, false, false, false⟩ → r.held = some j →
        taken (sessionOpened (withSession u p { r with awaited := left }) s.now p j.tag j.timeout j.subs)))

/-! ## Configuration Unit -/

namespace Sys2Proof.Claims

/-- The next message on SU → CU is this request, and the device runs. -/
def LeaseRequest (s : State) (p : Port) (tag : Byte) (body : ReqBody) (rest : List SuCuMsg) : Prop :=
  s.phase = .running ∧ s.su.toCu = .request ⟨p, tag, body⟩ :: rest

/-- The next state in which CU has taken its request, stands as `c`, and has sent port p one response. -/
def leaseAnswers (s : State) (rest : List SuCuMsg) (c : ConfigUnit) (p : Port) (tag : Byte) (st : Status)
    (payload : List Byte) : State :=
  { s with su := { s.su with toCu := rest }, cu := { c with toHp := c.toHp.push p ⟨st, tag, payload⟩ } }

/-- A port or none, as a payload carries it (section 11.6). -/
def holderByte (o : Option Port) : Byte :=
  match o with
  | some q => q.byte
  | none => 0xFF

/-- CU with a new holder, and its lease report to NU (R166). -/
def heldBy (c : ConfigUnit) (o : Option Port) (grant : Bool) : ConfigUnit :=
  { c with holder := o, toNu := c.toNu ++ [.lease o grant] }

/-- CU with the lease handed on (R164): to the head of the wait list, which leaves it, or to nobody. -/
def handedOn (c : ConfigUnit) : ConfigUnit :=
  match c.waiting with
  | [] => heldBy c none false
  | q :: more => heldBy { c with waiting := more } (some q) true

/-- The requests CU admits from the holder only (R168), with the commands that take them. -/
def Gated (cmd : Instr) (body : ReqBody) : Prop :=
  (∃ f v, cmd = .paramWrite ∧ body = .paramWrite f v) ∨ (cmd = .paramCopy ∧ body = .paramCopy) ∨
    (cmd = .activate ∧ body = .activate) ∨
    (cmd = .leaseGatedForward ∧ (body = .start ∨ body = .halt ∨ body = .relock ∨ body = .countersClear))

/-- The two banks by their roles (R170). -/
def activeOf (c : ConfigUnit) : Bank := if c.activeIndex = .bank0 then c.bank0 else c.bank1

def standbyOf (c : ConfigUnit) : Bank := if c.activeIndex = .bank0 then c.bank1 else c.bank0

/-- CU with the standby bank replaced; the active bank and the index stay. -/
def withStandby (c : ConfigUnit) (b : Bank) : ConfigUnit :=
  if c.activeIndex = .bank0 then { c with bank1 := b } else { c with bank0 := b }

/-- CU after a swap (R175): the index is the other bank's, no activation is pending, and NU is told. -/
def swapped (c : ConfigUnit) : ConfigUnit :=
  let other : BankId := if c.activeIndex = .bank0 then .bank1 else .bank0
  { c with activeIndex := other, activationPending := false, toNu := c.toNu ++ [.activation other] }

/-- The fields of a bank by their ids 00h to 14h, as whole numbers, with their ranges (R170). -/
def fieldTable (b : Bank) : List (Int × Int × Int) :=
  [(b.offS, -128, 127), (b.offC, -128, 127), (b.gainC, 768, 1280), (b.aLow, 64, 2046), (b.aHigh, 65, 2047),
    (b.persistence, 1, 15), (b.staleTimeout, 50, 2000), (b.coastLimit, 1, 255), (b.window, 16, 128), (b.tu, 1, 128),
    (b.td, 0, 127), (b.tl, 0, 127), (b.lw, 1, 8), (b.ceiling.val, 0, 7), (b.floor.val, 0, 7), (b.vmax, 64, 8191),
    (if b.holdOnRecovery then 1 else 0, 0, 1), (b.quota.p0, 0, 64), (b.quota.p1, 0, 64), (b.quota.p2, 0, 64),
    (b.quota.p3, 0, 64)]

/-- The value v lies in the range of field id f; W takes four values only (R170, R171). -/
def InRange (f : Nat) (v : Int) : Prop :=
  ∃ x lo hi, (fieldTable Bank.default)[f]? = some (x, lo, hi) ∧ lo ≤ v ∧ v ≤ hi ∧
    (f = 8 → v = 16 ∨ v = 32 ∨ v = 64 ∨ v = 128)

end Sys2Proof.Claims

/-- LEASE_TAKE (R163, R166): a wait flag above 1 is BAD_ARGUMENT; a free lease goes to the caller, with a lease report; the
holder is answered OK and a waiting port its position; any other caller joins the tail of the list under WAIT and is
answered LEASE_HELD with the holder under NO_WAIT. -/
def Obligations.LeaseIsTakenOrWaitedFor : Prop :=
  ∀ (s : State) (p : Port) (tag wait : Byte) (rest : List SuCuMsg), LeaseRequest s p tag (.leaseTake wait) rest →
    let c := s.cu
    let out := fun (c' : ConfigUnit) (st : Status) (payload : List Byte) =>
      exec .leaseTake s = .next (leaseAnswers s rest c' p tag st payload)
    (2 ≤ wait.toNat → out c .badArgument [1]) ∧
    (wait.toNat < 2 →
      (c.holder = none → out (heldBy c (some p) false) .ok []) ∧
      (c.holder = some p → out c .ok []) ∧
      (∀ q before after, c.holder = some q → q ≠ p → c.waiting = before ++ p :: after → p ∉ before →
        out c .leaseQueued [byteOf (before.length + 1)]) ∧
      (∀ q, c.holder = some q → q ≠ p → p ∉ c.waiting →
        (wait = 0 → out c .leaseHeld [q.byte]) ∧
        (wait = 1 → out { c with waiting := c.waiting ++ [p] } .leaseQueued [byteOf (c.waiting.length + 1)])))

/-- LEASE_DROP, LEASE_CANCEL and the purge of a port (R162, R164 to R167): the holder's drop and the purge of the holder hand
the lease on to the head of the wait list or free it, with a lease report; a drop by any other port is NO_LEASE; a cancel
takes the caller off the list, and is NO_ENTRY where it is not on it; a purge also takes the port off the list, and
always reports done. No port stands in the list twice and the holder is not in it, as CU keeps it. That the NO_LEASE of a
drop carries the present holder is DEDUCED from section 10.7 (notes/assumptions/4.md). -/
def Obligations.LeaseMovesOn : Prop :=
  ∀ (s : State) (p : Port) (tag : Byte) (rest : List SuCuMsg), s.cu.waiting.Nodup →
    (∀ q, s.cu.holder = some q → q ∉ s.cu.waiting) →
    let c := s.cu
    (LeaseRequest s p tag .leaseDrop rest →
      (c.holder = some p → exec .leaseDrop s =
        .next (leaseAnswers s rest (handedOn c) p tag .ok [holderByte (handedOn c).holder])) ∧
      (c.holder ≠ some p →
        exec .leaseDrop s = .next (leaseAnswers s rest c p tag .noLease [holderByte c.holder]))) ∧
    (LeaseRequest s p tag .leaseCancel rest →
      (∀ before after, c.waiting = before ++ p :: after → exec .leaseCancel s =
        .next (leaseAnswers s rest { c with waiting := before ++ after } p tag .ok [])) ∧
      (p ∉ c.waiting → exec .leaseCancel s = .next (leaseAnswers s rest c p tag .noEntry []))) ∧
    (s.phase = .running → s.su.toCu = .purge p :: rest →
      let out := fun (c' : ConfigUnit) =>
        exec .purgeAtCu s = .next { s with su := { s.su with toCu := rest }, cu := { c' with toSu := c.toSu ++ [p] } }
      (c.holder = some p → out (handedOn c)) ∧
      (∀ before after, c.waiting = before ++ p :: after → out { c with waiting := before ++ after }) ∧
      (c.holder ≠ some p → p ∉ c.waiting → out c))

/-- The lease gate and the forwarding of START, HALT, RELOCK and COUNTERS_CLEAR (R168, R169): a gated request from any port but
the holder is NO_LEASE with the present holder, and has no other effect; the holder's four go on to TL or SI, with no
response from CU. -/
def Obligations.LeaseGatesAndForwards : Prop :=
  ∀ (s : State) (p : Port) (tag : Byte) (body : ReqBody) (rest : List SuCuMsg), LeaseRequest s p tag body rest →
    let out := fun (c : ConfigUnit) => ({ s with su := { s.su with toCu := rest }, cu := c } : State)
    (∀ cmd, Gated cmd body → s.cu.holder ≠ some p →
      exec cmd s = .next (leaseAnswers s rest s.cu p tag .noLease [holderByte s.cu.holder])) ∧
    (s.cu.holder = some p → body = .start ∨ body = .halt ∨ body = .relock →
      exec .leaseGatedForward s = .next (out { s.cu with toTl := s.cu.toTl ++ [⟨p, tag, body⟩] })) ∧
    (s.cu.holder = some p → body = .countersClear →
      exec .leaseGatedForward s = .next (out { s.cu with toSi := s.cu.toSi ++ [⟨p, tag, body⟩] }))

/-- PARAM_WRITE, PARAM_COPY and PARAM_READ (R170 to R173, R196): a write by the holder is refused while an activation is
pending, then for its field id, then for its value as a signed number, and otherwise replaces that one field of the
standby bank; a copy replaces the whole standby bank by the active one; a read answers bank number, value and the
pending flag, and changes nothing. -/
def Obligations.ParametersWrittenCopiedAndRead : Prop :=
  ∀ (s : State) (p : Port) (tag : Byte) (rest : List SuCuMsg),
    let c := s.cu
    let out := fun (cmd : Instr) (c' : ConfigUnit) (st : Status) (payload : List Byte) =>
      exec cmd s = .next (leaseAnswers s rest c' p tag st payload)
    (∀ (f : Byte) (v : Word), LeaseRequest s p tag (.paramWrite f v) rest → c.holder = some p →
      (c.activationPending = true → out .paramWrite c .activationPending []) ∧
      (c.activationPending = false → 21 ≤ f.toNat → out .paramWrite c .badArgument [1]) ∧
      (c.activationPending = false → f.toNat < 21 → ¬ InRange f.toNat v.toInt →
        out .paramWrite c .badArgument [2]) ∧
      (c.activationPending = false → InRange f.toNat v.toInt → ∃ b : Bank,
        out .paramWrite (withStandby c b) .ok (f :: bytes16 v) ∧
        ∀ k x, (fieldTable (standbyOf c))[k]? = some x →
          (fieldTable b)[k]? = some (if k = f.toNat then (v.toInt, x.2) else x))) ∧
    (LeaseRequest s p tag .paramCopy rest → c.holder = some p →
      (c.activationPending = true → out .paramCopy c .activationPending []) ∧
      (c.activationPending = false → out .paramCopy (withStandby c (activeOf c)) .ok [])) ∧
    (∀ sel f : Byte, LeaseRequest s p tag (.paramRead sel f) rest →
      (2 ≤ sel.toNat → out .paramRead c .badArgument [1]) ∧
      (sel.toNat < 2 → 21 ≤ f.toNat → out .paramRead c .badArgument [2]) ∧
      (∀ x, (fieldTable (if sel = 0 then activeOf c else standbyOf c))[f.toNat]? = some x → sel.toNat < 2 →
        ∃ bank : Byte, (bank = if (sel = 0 ↔ c.activeIndex = .bank0) then 0 else 1) ∧
        out .paramRead c .ok (bank :: (bytesParam x.1 ++ [if c.activationPending then 1 else 0]))))

/-- ACTIVATE, the state messages and the boundary messages (R174 to R177): the holder's ACTIVATE is refused while one is
pending, and then by the first cross-field check the standby bank fails; it swaps the banks at once while the
loop-idle flag is set and becomes pending otherwise; state messages keep the flag; a boundary message swaps the banks
where an activation is pending and changes nothing where none is. -/
def Obligations.BanksAreActivated : Prop :=
  ∀ s : State, s.phase = .running →
    let c := s.cu
    let b := standbyOf c
    (∀ p tag rest, LeaseRequest s p tag .activate rest → c.holder = some p →
      let out := fun (c' : ConfigUnit) (st : Status) (payload : List Byte) =>
        exec .activate s = .next (leaseAnswers s rest c' p tag st payload)
      (c.activationPending = true → out c .activationPending []) ∧
      (c.activationPending = false → b.aHigh ≤ b.aLow → out c .badParams [3]) ∧
      (c.activationPending = false → b.aLow < b.aHigh → b.tu ≤ b.td → out c .badParams [0x0A]) ∧
      (c.activationPending = false → b.aLow < b.aHigh → b.td < b.tu → b.floor < b.ceiling →
        out c .badParams [0x0D]) ∧
      (c.activationPending = false → b.aLow < b.aHigh → b.td < b.tu → b.ceiling ≤ b.floor →
        (c.loopIdle = true → out (swapped c) .ok [if c.activeIndex = .bank0 then 1 else 0]) ∧
        (c.loopIdle = false → out { c with activationPending := true } .accepted []))) ∧
    (∀ new rest, s.tl.toCu = .state new :: rest → exec .stateMessage s = .next { s with
      tl := { s.tl with toCu := rest }, cu := { c with loopIdle := decide (new = .halted ∨ new = .lost) } }) ∧
    (∀ rest, s.tl.toCu = .boundary :: rest →
      (c.activationPending = true → exec .boundaryMessage s =
        .next { s with tl := { s.tl with toCu := rest }, cu := swapped c }) ∧
      (c.activationPending = false →
        exec .boundaryMessage s = .next { s with tl := { s.tl with toCu := rest } }))

/-! ## Host Ports -/

namespace Sys2Proof.Claims

/-- The codes of the code table with their argument byte counts (section 11.3). -/
def codeTable : List (Nat × Nat) :=
  [(0x01, 3), (0x02, 0), (0x03, 0), (0x04, 0), (0x05, 0), (0x10, 0), (0x11, 0), (0x12, 0), (0x13, 0), (0x18, 0), (0x19, 0),
    (0x1A, 0), (0x1B, 0), (0x1C, 0), (0x20, 13), (0x21, 11), (0x22, 3), (0x23, 3), (0x24, 3), (0x25, 1), (0x26, 0),
    (0x30, 0), (0x38, 3), (0x39, 1), (0x3A, 1), (0x3B, 1), (0x40, 1), (0x41, 0), (0x42, 0), (0x48, 3), (0x49, 0),
    (0x4A, 2), (0x4B, 0)]

/-- The 8-bit sum of a sequence of bytes, as a number (R185, R192). -/
def sumOf (l : List Byte) : Nat := (l.map BitVec.toNat).sum % 256

/-- The tag echo of HP's own error responses: the second whole byte received, or 00h (R187). -/
def echoOf (l : List Byte) : Byte :=
  match l with
  | _ :: tag :: _ => tag
  | _ => 0

/-- The first n levels SDOn shifts out of an image: its bytes, most significant bit first, and then fill bytes of FFh for as
long as the controller clocks (R182, R183). -/
def shiftedOut (image : List Byte) (n : Nat) : List Bool := (byteLevels (image ++ List.replicate n 0xFF)).take n

/-- A transaction of port p is open, of the kind and with the image given, nothing has been clocked yet, and SDOn is driven
with the first bit of the image. -/
def TransactionOpen (s : State) (p : Port) (kind : TransactionKind) (image : List Byte) : Prop :=
  s.phase = .running ∧ (s.hp.get p).transaction = some ⟨kind, image, 0, [], 0⟩ ∧
    (∃ level, (s.hp.get p).sdo = .driven level ∧ shiftedOut image 1 = [level]) ∧ (s.hp.get p).sdoShown = []

/-- The next state in which port p's transaction has closed after n rising edges of SCKn: SDOn has shown n levels and is at
high impedance, and the slot is as given. -/
def closedWith (s : State) (p : Port) (image : List Byte) (n : Nat) (slot : Slot) : State :=
  { s with hp := s.hp.set p { s.hp.get p with
      transaction := none, sdo := .highZ, sdoShown := shiftedOut image n, slot := slot } }

/-- The code of each request and its argument bytes in order, each wider value high byte first (section 11.3, R196). -/
def codeAndArgs : ReqBody → Byte × List Byte
  | .join t s => (0x01, big 2 t.toNat ++ [s])
  | .leave => (0x02, [])
  | .ping => (0x03, [])
  | .hostStatus => (0x04, [])
  | .nop => (0x05, [])
  | .readHealth => (0x10, [])
  | .ackHealth => (0x11, [])
  | .readCounters => (0x12, [])
  | .countersClear => (0x13, [])
  | .readAngle => (0x18, [])
  | .readLoop => (0x19, [])
  | .start => (0x1A, [])
  | .halt => (0x1B, [])
  | .relock => (0x1C, [])
  | .book a d ac l m dist r c t =>
      (0x20, big 2 a.toNat ++ [d, ac, l, m] ++ big 2 dist.toNat ++ big 2 r.toNat ++ [c] ++ big 2 t.toNat)
  | .amend i s ch a d t r =>
      (0x21, [i] ++ big 2 s.toNat ++ [ch] ++ big 2 a.toNat ++ [d] ++ big 2 t.toNat ++ big 2 r.toNat)
  | .cancel i s => (0x22, [i] ++ big 2 s.toNat)
  | .suspend i s => (0x23, [i] ++ big 2 s.toNat)
  | .resume i s => (0x24, [i] ++ big 2 s.toNat)
  | .readEntry i => (0x25, [i])
  | .listOwn => (0x26, [])
  | .noticePop => (0x30, [])
  | .lineClaim l pol w => (0x38, [l, pol, w])
  | .lineRelease l => (0x39, [l])
  | .linePulse l => (0x3A, [l])
  | .lineStatus l => (0x3B, [l])
  | .leaseTake w => (0x40, [w])
  | .leaseDrop => (0x41, [])
  | .leaseCancel => (0x42, [])
  | .paramWrite f v => (0x48, [f] ++ big 2 v.toNat)
  | .paramCopy => (0x49, [])
  | .paramRead sel f => (0x4A, [sel, f])
  | .activate => (0x4B, [])

/-- The code of each status (section 11.4). -/
def statusCode : Status → Byte
  | .ok => 0x00
  | .accepted => 0x01
  | .leaseQueued => 0x02
  | .empty => 0x10
  | .busy => 0x11
  | .frameError => 0x20
  | .unknownRequest => 0x21
  | .notJoined => 0x22
  | .closing => 0x23
  | .badArgument => 0x30
  | .noLease => 0x31
  | .leaseHeld => 0x32
  | .activationPending => 0x34
  | .badParams => 0x35
  | .wrongState => 0x36
  | .tableFull => 0x37
  | .quotaReached => 0x38
  | .notOwner => 0x39
  | .noEntry => 0x3A
  | .entrySpent => 0x3B
  | .lineHeld => 0x3C
  | .lineNotHeld => 0x3D
  | .lineInUse => 0x3E
  | .queueEmpty => 0x3F

end Sys2Proof.Claims

/-- Every request reaches SU as it was framed (R185, R186, R188): clock the frame of any request, its code, the tag, its
argument bytes by section 11.3, and the check byte that makes the 8-bit sum 00h, and after it any number of whole filler
bytes, in a transaction of an IDLE or READY slot; at the rising edge HPp hands SU that very request with that tag, and the
slot becomes PENDING. Meanwhile SDOn has shown the image, then fill bytes (R182, R183). That the edges of SCKn come with
the command that closes the transaction is a DESIGN CHOICE (notes/assumptions/10.md). -/
def Obligations.FramedRequestReachesSessionUnit : Prop :=
  ∀ (s : State) (p : Port) (kind : TransactionKind) (image : List Byte) (tag check : Byte) (b : ReqBody)
    (filler : List Byte), TransactionOpen s p kind image → kind ≠ .pending →
    let frame := [(codeAndArgs b).1, tag] ++ (codeAndArgs b).2 ++ [check]
    sumOf frame = 0 →
    exec (.csRises p (byteLevels (frame ++ filler))) s = .next { s with
      hp := s.hp.set p { s.hp.get p with
        transaction := none, sdo := .highZ, sdoShown := shiftedOut image (8 * (frame ++ filler).length)
        slot := .pending, toSu := (s.hp.get p).toSu ++ [⟨p, tag, b⟩] } }

/-- What a transaction comes to whose frame is not good (R184, R186 to R189): with fewer than eight bits it is ignored whole;
a partial last byte, then an unknown code, then a short frame, then a bad check is answered by HPp itself with
FRAME_ERROR or UNKNOWN_REQUEST and the tag echo; a transaction of a PENDING slot is discarded whatever it carried. SDOn
has shown the image meanwhile (R182, R183; the edges of SCKn come with the command, DESIGN CHOICE,
notes/assumptions/10.md). A rising edge of CSn_N with no transaction open, as after a reset that ended with CSn_N low, is
ignored whatever was clocked (R181). -/
def Obligations.FaultyTransactionsAreJudgedInOrder : Prop :=
  (∀ (s : State) (p : Port) (levels : List Bool), s.phase = .running → (s.hp.get p).transaction = none →
    exec (.csRises p levels) s = .next s) ∧
  ∀ (s : State) (p : Port) (kind : TransactionKind) (image bytes : List Byte) (more : List Bool),
    TransactionOpen s p kind image → more.length < 8 →
    let result := exec (.csRises p (byteLevels bytes ++ more)) s
    let closed := fun (slot : Slot) => .next (closedWith s p image (8 * bytes.length + more.length) slot)
    let error := fun (st : Status) => closed (.ready ⟨st, echoOf bytes, []⟩)
    (kind = .pending → result = closed (s.hp.get p).slot) ∧
    (kind ≠ .pending →
      (bytes = [] → result = closed (s.hp.get p).slot) ∧
      (bytes ≠ [] → more ≠ [] → result = error .frameError) ∧
      (∀ code rest, bytes = code :: rest → more = [] →
        ((∀ n, (code.toNat, n) ∉ codeTable) → result = error .unknownRequest) ∧
        (∀ n, (code.toNat, n) ∈ codeTable →
          (bytes.length < n + 3 → result = error .frameError) ∧
          (n + 3 ≤ bytes.length → sumOf (bytes.take (n + 3)) ≠ 0 → result = error .frameError))))

/-- CSn_N falling, and what SDOn shifts out after it (R182, R183, R188, R191, R192): the transaction's kind and image are
fixed from the slot, the EMPTY marker, the held response with the status code of section 11.4, or the BUSY marker, with
the epoch and the queue length held; the check byte makes the sum 00h; SDOn shows the first bit of the image, then at
each rising edge of SCKn the next bit, most significant bit first, and after the image fill bytes of FFh, and it returns
to high impedance when CSn_N rises. That the edges of SCKn come with the command that closes the transaction, so that the
state shows SDOn between them only as the levels it showed, is a DESIGN CHOICE (notes/assumptions/10.md). -/
def Obligations.FallingEdgeBuildsTheImage : Prop :=
  ∀ (s : State) (p : Port), s.phase = .running →
    let h := s.hp.get p
    ∃ (kind : TransactionKind) (status tag check : Byte) (payload : List Byte),
      let image := [status, tag, h.epoch, byteOf h.queueLength, byteOf payload.length] ++ payload ++ [check]
      let opened := { s with hp := s.hp.set p { h with
        transaction := some ⟨kind, image, 0, [], 0⟩, sdo := .driven (status.getLsbD 7), sdoShown := [] } }
      exec (.csFalls p) s = .next opened ∧
      sumOf image = 0 ∧
      (h.slot = .idle → kind = .idle ∧ status = 0x10 ∧ tag = 0 ∧ payload = []) ∧
      (h.slot = .pending → kind = .pending ∧ status = 0x11 ∧ tag = 0 ∧ payload = []) ∧
      (∀ r, h.slot = .ready r → kind = .ready ∧ status = statusCode r.status ∧ tag = r.tag ∧ payload = r.payload) ∧
      ∀ levels : List Bool, ∃ t, exec (.csRises p levels) opened = .next t ∧
        (t.hp.get p).sdoShown = shiftedOut image levels.length ∧ (t.hp.get p).sdo = .highZ

/-- What HPp takes from the blocks (R190, R191): a response at the head of a block's path becomes the held response and the
slot READY; an epoch message and a queue length message set the value held and leave the slot and the transaction as
they are. -/
def Obligations.ResponsesAndHeaderValuesAreHeld : Prop :=
  ∀ (s : State) (p : Port), s.phase = .running →
    let h := s.hp.get p
    let held := fun (s' : State) (r : Response) => { s' with hp := s.hp.set p { h with slot := .ready r } }
    (∀ r rest, s.si.toHp.get p = r :: rest → exec (.responseWrite .si p) s =
      .next (held { s with si := { s.si with toHp := s.si.toHp.set p rest } } r)) ∧
    (∀ r rest, s.tl.toHp.get p = r :: rest → exec (.responseWrite .tl p) s =
      .next (held { s with tl := { s.tl with toHp := s.tl.toHp.set p rest } } r)) ∧
    (∀ r rest, s.tt.toHp.get p = r :: rest → exec (.responseWrite .tt p) s =
      .next (held { s with tt := { s.tt with toHp := s.tt.toHp.set p rest } } r)) ∧
    (∀ r rest, s.nu.toHp.get p = .response r :: rest → exec (.responseWrite .nu p) s =
      .next (held { s with nu := { s.nu with toHp := s.nu.toHp.set p rest } } r)) ∧
    (∀ r rest, s.lu.toHp.get p = r :: rest → exec (.responseWrite .lu p) s =
      .next (held { s with lu := { s.lu with toHp := s.lu.toHp.set p rest } } r)) ∧
    (∀ r rest, s.su.toHp.get p = .response r :: rest → exec (.responseWrite .su p) s =
      .next (held { s with su := { s.su with toHp := s.su.toHp.set p rest } } r)) ∧
    (∀ r rest, s.cu.toHp.get p = r :: rest → exec (.responseWrite .cu p) s =
      .next (held { s with cu := { s.cu with toHp := s.cu.toHp.set p rest } } r)) ∧
    (∀ e rest, s.su.toHp.get p = .epoch e :: rest → exec (.epochMessage p) s = .next { s with
      su := { s.su with toHp := s.su.toHp.set p rest }, hp := s.hp.set p { h with epoch := e } }) ∧
    (∀ n rest, s.nu.toHp.get p = .queueLength n :: rest → exec (.queueLengthMessage p) s = .next { s with
      nu := { s.nu with toHp := s.nu.toHp.set p rest }, hp := s.hp.set p { h with queueLength := n } })

/-! ## What every step keeps

Each of these starts from any state that meets the conditions named, not from reset alone; the last says that
State.reset meets them all. -/

/-- Every field of both banks stays in its range, the active bank passes the cross-field checks, a pending activation's
standby bank stays as checked, and the holder and the wait list stay apart, each waiting port once (R162, R170, R174,
R179). -/
def Obligations.BanksAndLeaseStaySound : Prop :=
  ∀ s s' : State, s.cu.Sound → step s = .next s' → s'.cu.Sound

/-- While the banks are sound, the loop record keeps its bounds: the window counts lie within the position and below 128, the
lock run within 8, the velocity within the largest limit, and a LOST loop stands still (R32, R34, R46, R57, R58, R63). -/
def Obligations.LoopRecordStaysSound : Prop :=
  ∀ s s' : State, s.cu.Sound → s.tl.loop.Sound → step s = .next s' → s'.tl.loop.Sound

/-- The baseline stays none exactly while STALE is active (R7, R12, R20), every booking keeps its conditions (R69, R71, R105),
every pin follows its line's state and polarity (R133), and every SDOn is at high impedance exactly while no
transaction is in progress (R181, R182). -/
def Obligations.IntakeTableLinesAndPortsStaySound : Prop :=
  ∀ s s' : State, step s = .next s' →
    (s.si.Sound → s'.si.Sound) ∧ (s.tt.Sound → s'.tt.Sound) ∧ (s.lu.Sound → s'.lu.Sound) ∧
      ((∀ p, (s.hp.get p).Sound) → ∀ p, (s'.hp.get p).Sound)

/-- Every port's notice queue keeps at most 16 notices with consecutive sequence numbers, owes something only while it is
full, is empty while the port is closed, and holds its attention line low exactly while it holds a notice (R113, R115,
R116, R129, R130). -/
def Obligations.NoticeQueuesStaySound : Prop :=
  ∀ s s' : State, s.nu.Sound → step s = .next s' → s'.nu.Sound

/-- Every session record keeps its shape: done reports are awaited while CLOSING and in no other state, a JOIN is held while
CLOSING only, the timer runs in OPEN only and exactly where the timeout is not 0, and a session's epoch is never 0 (R145,
R146, R149). And no timer of the device expires late: from RESET_N found low until reset ends every timer is stopped, and
otherwise the timebase never goes past the tick of a running timer, the stale timer, a session timer or a pulse timer,
before its expiry has been taken (R198; the numbering of the ticks is the model's, DESIGN CHOICE,
notes/assumptions/2.md and 3.md, and a pulse's tick is DEDUCED, notes/assumptions/6.md). -/
def Obligations.SessionRecordsAndTimersStaySound : Prop :=
  ∀ s s' : State, step s = .next s' →
    (s.su.Sound → s'.su.Sound) ∧ (s.TimersSound → s'.TimersSound)

/-- What a port holds ends before its session does (R157). While the messages between SU and the four blocks that hold
something for a port stand as the teardown puts them, they go on standing so at every step, where for CU the banks and the
lease, and for NU the notice queues, are sound as well; and then every trigger entry that is not FREE has an owner whose
session is OPEN or CLOSING (R70), every trigger line that is not UNOWNED has one too, the lease holder and every waiting
port have sessions OPEN or CLOSING (R162), and a port whose session is CLOSED has an empty notice queue, an empty owed
list and a clear summary-owed flag (R129). -/
def Obligations.HoldingsEndBeforeTheirSession : Prop :=
  ∀ s s' : State, step s = .next s' →
    ((∀ p, s.TableTied p) → (∀ p, s'.TableTied p) ∧ s'.EntriesOwned) ∧
      ((∀ p, s.LineTied p) → (∀ p, s'.LineTied p) ∧ s'.LinesOwned) ∧
      (s.cu.Sound → (∀ p, s.LeaseTied p) → (∀ p, s'.LeaseTied p) ∧ s'.LeaseOwned) ∧
      (s.nu.Sound → (∀ p, s.NoticeTied p) → (∀ p, s'.NoticeTied p) ∧ s'.NoticesOwned)

/-- The state after reset meets every condition the steps keep. -/
def Obligations.StateAfterResetIsSound : Prop :=
  State.reset.cu.Sound ∧ State.reset.tl.loop.Sound ∧ State.reset.si.Sound ∧ State.reset.tt.Sound ∧
    State.reset.lu.Sound ∧ State.reset.nu.Sound ∧ State.reset.su.Sound ∧ (∀ p, (State.reset.hp.get p).Sound) ∧
      State.reset.TimersSound ∧
      ∀ p, State.reset.TableTied p ∧ State.reset.LineTied p ∧ State.reset.LeaseTied p ∧ State.reset.NoticeTied p
end

