-- ==== Sys2Proof/Laws/State.lean ====
section
/-! SUPPORT. One lemma for each field and each named update of the state, and the laws of the items held by port and by
line: what a get reads after a set, and that a set leaves every other item alone. -/

namespace Sys2Proof.Machine

/-! ## State.advanceTo -/

@[simp] theorem State.advanceTo_si (s : State) (n : Nat) : (s.advanceTo n).si = s.si := rfl
@[simp] theorem State.advanceTo_tl (s : State) (n : Nat) : (s.advanceTo n).tl = s.tl := rfl
@[simp] theorem State.advanceTo_tt (s : State) (n : Nat) : (s.advanceTo n).tt = s.tt := rfl
@[simp] theorem State.advanceTo_nu (s : State) (n : Nat) : (s.advanceTo n).nu = s.nu := rfl
@[simp] theorem State.advanceTo_lu (s : State) (n : Nat) : (s.advanceTo n).lu = s.lu := rfl
@[simp] theorem State.advanceTo_su (s : State) (n : Nat) : (s.advanceTo n).su = s.su := rfl
@[simp] theorem State.advanceTo_cu (s : State) (n : Nat) : (s.advanceTo n).cu = s.cu := rfl
@[simp] theorem State.advanceTo_hp (s : State) (n : Nat) : (s.advanceTo n).hp = s.hp := rfl
@[simp] theorem State.advanceTo_now (s : State) (n : Nat) : (s.advanceTo n).now = max s.now n := rfl
@[simp] theorem State.advanceTo_phase (s : State) (n : Nat) : (s.advanceTo n).phase = s.phase := rfl
@[simp] theorem State.advanceTo_pending (s : State) (n : Nat) : (s.advanceTo n).pending = s.pending := rfl

/-! ## State.tick -/

@[simp] theorem State.tick_si (s : State) : (s.tick).si = s.si := rfl
@[simp] theorem State.tick_tl (s : State) : (s.tick).tl = s.tl := rfl
@[simp] theorem State.tick_tt (s : State) : (s.tick).tt = s.tt := rfl
@[simp] theorem State.tick_nu (s : State) : (s.tick).nu = s.nu := rfl
@[simp] theorem State.tick_lu (s : State) : (s.tick).lu = s.lu := rfl
@[simp] theorem State.tick_su (s : State) : (s.tick).su = s.su := rfl
@[simp] theorem State.tick_cu (s : State) : (s.tick).cu = s.cu := rfl
@[simp] theorem State.tick_hp (s : State) : (s.tick).hp = s.hp := rfl
@[simp] theorem State.tick_now (s : State) : (s.tick).now = s.now + 1 := rfl
@[simp] theorem State.tick_phase (s : State) : (s.tick).phase = s.phase := rfl
@[simp] theorem State.tick_pending (s : State) : (s.tick).pending = s.pending := rfl

/-! ## State.setHp -/

@[simp] theorem State.setHp_si (s : State) (p : Port) (h : HostPort) : (s.setHp p h).si = s.si := rfl
@[simp] theorem State.setHp_tl (s : State) (p : Port) (h : HostPort) : (s.setHp p h).tl = s.tl := rfl
@[simp] theorem State.setHp_tt (s : State) (p : Port) (h : HostPort) : (s.setHp p h).tt = s.tt := rfl
@[simp] theorem State.setHp_nu (s : State) (p : Port) (h : HostPort) : (s.setHp p h).nu = s.nu := rfl
@[simp] theorem State.setHp_lu (s : State) (p : Port) (h : HostPort) : (s.setHp p h).lu = s.lu := rfl
@[simp] theorem State.setHp_su (s : State) (p : Port) (h : HostPort) : (s.setHp p h).su = s.su := rfl
@[simp] theorem State.setHp_cu (s : State) (p : Port) (h : HostPort) : (s.setHp p h).cu = s.cu := rfl
@[simp] theorem State.setHp_hp (s : State) (p : Port) (h : HostPort) : (s.setHp p h).hp = s.hp.set p h := rfl
@[simp] theorem State.setHp_now (s : State) (p : Port) (h : HostPort) : (s.setHp p h).now = s.now := rfl
@[simp] theorem State.setHp_phase (s : State) (p : Port) (h : HostPort) : (s.setHp p h).phase = s.phase := rfl
@[simp] theorem State.setHp_pending (s : State) (p : Port) (h : HostPort) : (s.setHp p h).pending = s.pending := rfl

/-! ## State.takeHpSu -/

@[simp] theorem State.takeHpSu_si (s : State) (p : Port) (l : List Request) : (s.takeHpSu p l).si = s.si := rfl
@[simp] theorem State.takeHpSu_tl (s : State) (p : Port) (l : List Request) : (s.takeHpSu p l).tl = s.tl := rfl
@[simp] theorem State.takeHpSu_tt (s : State) (p : Port) (l : List Request) : (s.takeHpSu p l).tt = s.tt := rfl
@[simp] theorem State.takeHpSu_nu (s : State) (p : Port) (l : List Request) : (s.takeHpSu p l).nu = s.nu := rfl
@[simp] theorem State.takeHpSu_lu (s : State) (p : Port) (l : List Request) : (s.takeHpSu p l).lu = s.lu := rfl
@[simp] theorem State.takeHpSu_su (s : State) (p : Port) (l : List Request) : (s.takeHpSu p l).su = s.su := rfl
@[simp] theorem State.takeHpSu_cu (s : State) (p : Port) (l : List Request) : (s.takeHpSu p l).cu = s.cu := rfl
@[simp] theorem State.takeHpSu_hp (s : State) (p : Port) (l : List Request) :
    (s.takeHpSu p l).hp = s.hp.set p { s.hp.get p with toSu := l } := rfl
@[simp] theorem State.takeHpSu_now (s : State) (p : Port) (l : List Request) : (s.takeHpSu p l).now = s.now := rfl
@[simp] theorem State.takeHpSu_phase (s : State) (p : Port) (l : List Request) :
    (s.takeHpSu p l).phase = s.phase := rfl
@[simp] theorem State.takeHpSu_pending (s : State) (p : Port) (l : List Request) :
    (s.takeHpSu p l).pending = s.pending := rfl

/-! ## State.takeSuSi -/

@[simp] theorem State.takeSuSi_si (s : State) (l : List SuSiMsg) : (s.takeSuSi l).si = s.si := rfl
@[simp] theorem State.takeSuSi_tl (s : State) (l : List SuSiMsg) : (s.takeSuSi l).tl = s.tl := rfl
@[simp] theorem State.takeSuSi_tt (s : State) (l : List SuSiMsg) : (s.takeSuSi l).tt = s.tt := rfl
@[simp] theorem State.takeSuSi_nu (s : State) (l : List SuSiMsg) : (s.takeSuSi l).nu = s.nu := rfl
@[simp] theorem State.takeSuSi_lu (s : State) (l : List SuSiMsg) : (s.takeSuSi l).lu = s.lu := rfl
@[simp] theorem State.takeSuSi_su (s : State) (l : List SuSiMsg) : (s.takeSuSi l).su = { s.su with toSi := l } := rfl
@[simp] theorem State.takeSuSi_cu (s : State) (l : List SuSiMsg) : (s.takeSuSi l).cu = s.cu := rfl
@[simp] theorem State.takeSuSi_hp (s : State) (l : List SuSiMsg) : (s.takeSuSi l).hp = s.hp := rfl
@[simp] theorem State.takeSuSi_now (s : State) (l : List SuSiMsg) : (s.takeSuSi l).now = s.now := rfl
@[simp] theorem State.takeSuSi_phase (s : State) (l : List SuSiMsg) : (s.takeSuSi l).phase = s.phase := rfl
@[simp] theorem State.takeSuSi_pending (s : State) (l : List SuSiMsg) : (s.takeSuSi l).pending = s.pending := rfl

/-! ## State.takeSuTl -/

@[simp] theorem State.takeSuTl_si (s : State) (l : List Request) : (s.takeSuTl l).si = s.si := rfl
@[simp] theorem State.takeSuTl_tl (s : State) (l : List Request) : (s.takeSuTl l).tl = s.tl := rfl
@[simp] theorem State.takeSuTl_tt (s : State) (l : List Request) : (s.takeSuTl l).tt = s.tt := rfl
@[simp] theorem State.takeSuTl_nu (s : State) (l : List Request) : (s.takeSuTl l).nu = s.nu := rfl
@[simp] theorem State.takeSuTl_lu (s : State) (l : List Request) : (s.takeSuTl l).lu = s.lu := rfl
@[simp] theorem State.takeSuTl_su (s : State) (l : List Request) : (s.takeSuTl l).su = { s.su with toTl := l } := rfl
@[simp] theorem State.takeSuTl_cu (s : State) (l : List Request) : (s.takeSuTl l).cu = s.cu := rfl
@[simp] theorem State.takeSuTl_hp (s : State) (l : List Request) : (s.takeSuTl l).hp = s.hp := rfl
@[simp] theorem State.takeSuTl_now (s : State) (l : List Request) : (s.takeSuTl l).now = s.now := rfl
@[simp] theorem State.takeSuTl_phase (s : State) (l : List Request) : (s.takeSuTl l).phase = s.phase := rfl
@[simp] theorem State.takeSuTl_pending (s : State) (l : List Request) : (s.takeSuTl l).pending = s.pending := rfl

/-! ## State.takeSuTt -/

@[simp] theorem State.takeSuTt_si (s : State) (l : List SuTtMsg) : (s.takeSuTt l).si = s.si := rfl
@[simp] theorem State.takeSuTt_tl (s : State) (l : List SuTtMsg) : (s.takeSuTt l).tl = s.tl := rfl
@[simp] theorem State.takeSuTt_tt (s : State) (l : List SuTtMsg) : (s.takeSuTt l).tt = s.tt := rfl
@[simp] theorem State.takeSuTt_nu (s : State) (l : List SuTtMsg) : (s.takeSuTt l).nu = s.nu := rfl
@[simp] theorem State.takeSuTt_lu (s : State) (l : List SuTtMsg) : (s.takeSuTt l).lu = s.lu := rfl
@[simp] theorem State.takeSuTt_su (s : State) (l : List SuTtMsg) : (s.takeSuTt l).su = { s.su with toTt := l } := rfl
@[simp] theorem State.takeSuTt_cu (s : State) (l : List SuTtMsg) : (s.takeSuTt l).cu = s.cu := rfl
@[simp] theorem State.takeSuTt_hp (s : State) (l : List SuTtMsg) : (s.takeSuTt l).hp = s.hp := rfl
@[simp] theorem State.takeSuTt_now (s : State) (l : List SuTtMsg) : (s.takeSuTt l).now = s.now := rfl
@[simp] theorem State.takeSuTt_phase (s : State) (l : List SuTtMsg) : (s.takeSuTt l).phase = s.phase := rfl
@[simp] theorem State.takeSuTt_pending (s : State) (l : List SuTtMsg) : (s.takeSuTt l).pending = s.pending := rfl

/-! ## State.takeSuNu -/

@[simp] theorem State.takeSuNu_si (s : State) (l : List SuNuMsg) : (s.takeSuNu l).si = s.si := rfl
@[simp] theorem State.takeSuNu_tl (s : State) (l : List SuNuMsg) : (s.takeSuNu l).tl = s.tl := rfl
@[simp] theorem State.takeSuNu_tt (s : State) (l : List SuNuMsg) : (s.takeSuNu l).tt = s.tt := rfl
@[simp] theorem State.takeSuNu_nu (s : State) (l : List SuNuMsg) : (s.takeSuNu l).nu = s.nu := rfl
@[simp] theorem State.takeSuNu_lu (s : State) (l : List SuNuMsg) : (s.takeSuNu l).lu = s.lu := rfl
@[simp] theorem State.takeSuNu_su (s : State) (l : List SuNuMsg) : (s.takeSuNu l).su = { s.su with toNu := l } := rfl
@[simp] theorem State.takeSuNu_cu (s : State) (l : List SuNuMsg) : (s.takeSuNu l).cu = s.cu := rfl
@[simp] theorem State.takeSuNu_hp (s : State) (l : List SuNuMsg) : (s.takeSuNu l).hp = s.hp := rfl
@[simp] theorem State.takeSuNu_now (s : State) (l : List SuNuMsg) : (s.takeSuNu l).now = s.now := rfl
@[simp] theorem State.takeSuNu_phase (s : State) (l : List SuNuMsg) : (s.takeSuNu l).phase = s.phase := rfl
@[simp] theorem State.takeSuNu_pending (s : State) (l : List SuNuMsg) : (s.takeSuNu l).pending = s.pending := rfl

/-! ## State.takeSuLu -/

@[simp] theorem State.takeSuLu_si (s : State) (l : List SuLuMsg) : (s.takeSuLu l).si = s.si := rfl
@[simp] theorem State.takeSuLu_tl (s : State) (l : List SuLuMsg) : (s.takeSuLu l).tl = s.tl := rfl
@[simp] theorem State.takeSuLu_tt (s : State) (l : List SuLuMsg) : (s.takeSuLu l).tt = s.tt := rfl
@[simp] theorem State.takeSuLu_nu (s : State) (l : List SuLuMsg) : (s.takeSuLu l).nu = s.nu := rfl
@[simp] theorem State.takeSuLu_lu (s : State) (l : List SuLuMsg) : (s.takeSuLu l).lu = s.lu := rfl
@[simp] theorem State.takeSuLu_su (s : State) (l : List SuLuMsg) : (s.takeSuLu l).su = { s.su with toLu := l } := rfl
@[simp] theorem State.takeSuLu_cu (s : State) (l : List SuLuMsg) : (s.takeSuLu l).cu = s.cu := rfl
@[simp] theorem State.takeSuLu_hp (s : State) (l : List SuLuMsg) : (s.takeSuLu l).hp = s.hp := rfl
@[simp] theorem State.takeSuLu_now (s : State) (l : List SuLuMsg) : (s.takeSuLu l).now = s.now := rfl
@[simp] theorem State.takeSuLu_phase (s : State) (l : List SuLuMsg) : (s.takeSuLu l).phase = s.phase := rfl
@[simp] theorem State.takeSuLu_pending (s : State) (l : List SuLuMsg) : (s.takeSuLu l).pending = s.pending := rfl

/-! ## State.takeSuCu -/

@[simp] theorem State.takeSuCu_si (s : State) (l : List SuCuMsg) : (s.takeSuCu l).si = s.si := rfl
@[simp] theorem State.takeSuCu_tl (s : State) (l : List SuCuMsg) : (s.takeSuCu l).tl = s.tl := rfl
@[simp] theorem State.takeSuCu_tt (s : State) (l : List SuCuMsg) : (s.takeSuCu l).tt = s.tt := rfl
@[simp] theorem State.takeSuCu_nu (s : State) (l : List SuCuMsg) : (s.takeSuCu l).nu = s.nu := rfl
@[simp] theorem State.takeSuCu_lu (s : State) (l : List SuCuMsg) : (s.takeSuCu l).lu = s.lu := rfl
@[simp] theorem State.takeSuCu_su (s : State) (l : List SuCuMsg) : (s.takeSuCu l).su = { s.su with toCu := l } := rfl
@[simp] theorem State.takeSuCu_cu (s : State) (l : List SuCuMsg) : (s.takeSuCu l).cu = s.cu := rfl
@[simp] theorem State.takeSuCu_hp (s : State) (l : List SuCuMsg) : (s.takeSuCu l).hp = s.hp := rfl
@[simp] theorem State.takeSuCu_now (s : State) (l : List SuCuMsg) : (s.takeSuCu l).now = s.now := rfl
@[simp] theorem State.takeSuCu_phase (s : State) (l : List SuCuMsg) : (s.takeSuCu l).phase = s.phase := rfl
@[simp] theorem State.takeSuCu_pending (s : State) (l : List SuCuMsg) : (s.takeSuCu l).pending = s.pending := rfl

/-! ## State.takeSiTl -/

@[simp] theorem State.takeSiTl_si (s : State) (l : List SiTlMsg) : (s.takeSiTl l).si = { s.si with toTl := l } := rfl
@[simp] theorem State.takeSiTl_tl (s : State) (l : List SiTlMsg) : (s.takeSiTl l).tl = s.tl := rfl
@[simp] theorem State.takeSiTl_tt (s : State) (l : List SiTlMsg) : (s.takeSiTl l).tt = s.tt := rfl
@[simp] theorem State.takeSiTl_nu (s : State) (l : List SiTlMsg) : (s.takeSiTl l).nu = s.nu := rfl
@[simp] theorem State.takeSiTl_lu (s : State) (l : List SiTlMsg) : (s.takeSiTl l).lu = s.lu := rfl
@[simp] theorem State.takeSiTl_su (s : State) (l : List SiTlMsg) : (s.takeSiTl l).su = s.su := rfl
@[simp] theorem State.takeSiTl_cu (s : State) (l : List SiTlMsg) : (s.takeSiTl l).cu = s.cu := rfl
@[simp] theorem State.takeSiTl_hp (s : State) (l : List SiTlMsg) : (s.takeSiTl l).hp = s.hp := rfl
@[simp] theorem State.takeSiTl_now (s : State) (l : List SiTlMsg) : (s.takeSiTl l).now = s.now := rfl
@[simp] theorem State.takeSiTl_phase (s : State) (l : List SiTlMsg) : (s.takeSiTl l).phase = s.phase := rfl
@[simp] theorem State.takeSiTl_pending (s : State) (l : List SiTlMsg) : (s.takeSiTl l).pending = s.pending := rfl

/-! ## State.takeCuTl -/

@[simp] theorem State.takeCuTl_si (s : State) (l : List Request) : (s.takeCuTl l).si = s.si := rfl
@[simp] theorem State.takeCuTl_tl (s : State) (l : List Request) : (s.takeCuTl l).tl = s.tl := rfl
@[simp] theorem State.takeCuTl_tt (s : State) (l : List Request) : (s.takeCuTl l).tt = s.tt := rfl
@[simp] theorem State.takeCuTl_nu (s : State) (l : List Request) : (s.takeCuTl l).nu = s.nu := rfl
@[simp] theorem State.takeCuTl_lu (s : State) (l : List Request) : (s.takeCuTl l).lu = s.lu := rfl
@[simp] theorem State.takeCuTl_su (s : State) (l : List Request) : (s.takeCuTl l).su = s.su := rfl
@[simp] theorem State.takeCuTl_cu (s : State) (l : List Request) : (s.takeCuTl l).cu = { s.cu with toTl := l } := rfl
@[simp] theorem State.takeCuTl_hp (s : State) (l : List Request) : (s.takeCuTl l).hp = s.hp := rfl
@[simp] theorem State.takeCuTl_now (s : State) (l : List Request) : (s.takeCuTl l).now = s.now := rfl
@[simp] theorem State.takeCuTl_phase (s : State) (l : List Request) : (s.takeCuTl l).phase = s.phase := rfl
@[simp] theorem State.takeCuTl_pending (s : State) (l : List Request) : (s.takeCuTl l).pending = s.pending := rfl

/-! ## State.takeCuNu -/

@[simp] theorem State.takeCuNu_si (s : State) (l : List CuNuMsg) : (s.takeCuNu l).si = s.si := rfl
@[simp] theorem State.takeCuNu_tl (s : State) (l : List CuNuMsg) : (s.takeCuNu l).tl = s.tl := rfl
@[simp] theorem State.takeCuNu_tt (s : State) (l : List CuNuMsg) : (s.takeCuNu l).tt = s.tt := rfl
@[simp] theorem State.takeCuNu_nu (s : State) (l : List CuNuMsg) : (s.takeCuNu l).nu = s.nu := rfl
@[simp] theorem State.takeCuNu_lu (s : State) (l : List CuNuMsg) : (s.takeCuNu l).lu = s.lu := rfl
@[simp] theorem State.takeCuNu_su (s : State) (l : List CuNuMsg) : (s.takeCuNu l).su = s.su := rfl
@[simp] theorem State.takeCuNu_cu (s : State) (l : List CuNuMsg) : (s.takeCuNu l).cu = { s.cu with toNu := l } := rfl
@[simp] theorem State.takeCuNu_hp (s : State) (l : List CuNuMsg) : (s.takeCuNu l).hp = s.hp := rfl
@[simp] theorem State.takeCuNu_now (s : State) (l : List CuNuMsg) : (s.takeCuNu l).now = s.now := rfl
@[simp] theorem State.takeCuNu_phase (s : State) (l : List CuNuMsg) : (s.takeCuNu l).phase = s.phase := rfl
@[simp] theorem State.takeCuNu_pending (s : State) (l : List CuNuMsg) : (s.takeCuNu l).pending = s.pending := rfl

/-! ## State.takeTlNu -/

@[simp] theorem State.takeTlNu_si (s : State) (l : List TlNuMsg) : (s.takeTlNu l).si = s.si := rfl
@[simp] theorem State.takeTlNu_tl (s : State) (l : List TlNuMsg) : (s.takeTlNu l).tl = { s.tl with toNu := l } := rfl
@[simp] theorem State.takeTlNu_tt (s : State) (l : List TlNuMsg) : (s.takeTlNu l).tt = s.tt := rfl
@[simp] theorem State.takeTlNu_nu (s : State) (l : List TlNuMsg) : (s.takeTlNu l).nu = s.nu := rfl
@[simp] theorem State.takeTlNu_lu (s : State) (l : List TlNuMsg) : (s.takeTlNu l).lu = s.lu := rfl
@[simp] theorem State.takeTlNu_su (s : State) (l : List TlNuMsg) : (s.takeTlNu l).su = s.su := rfl
@[simp] theorem State.takeTlNu_cu (s : State) (l : List TlNuMsg) : (s.takeTlNu l).cu = s.cu := rfl
@[simp] theorem State.takeTlNu_hp (s : State) (l : List TlNuMsg) : (s.takeTlNu l).hp = s.hp := rfl
@[simp] theorem State.takeTlNu_now (s : State) (l : List TlNuMsg) : (s.takeTlNu l).now = s.now := rfl
@[simp] theorem State.takeTlNu_phase (s : State) (l : List TlNuMsg) : (s.takeTlNu l).phase = s.phase := rfl
@[simp] theorem State.takeTlNu_pending (s : State) (l : List TlNuMsg) : (s.takeTlNu l).pending = s.pending := rfl

/-! ## State.takeTlCu -/

@[simp] theorem State.takeTlCu_si (s : State) (l : List TlCuMsg) : (s.takeTlCu l).si = s.si := rfl
@[simp] theorem State.takeTlCu_tl (s : State) (l : List TlCuMsg) : (s.takeTlCu l).tl = { s.tl with toCu := l } := rfl
@[simp] theorem State.takeTlCu_tt (s : State) (l : List TlCuMsg) : (s.takeTlCu l).tt = s.tt := rfl
@[simp] theorem State.takeTlCu_nu (s : State) (l : List TlCuMsg) : (s.takeTlCu l).nu = s.nu := rfl
@[simp] theorem State.takeTlCu_lu (s : State) (l : List TlCuMsg) : (s.takeTlCu l).lu = s.lu := rfl
@[simp] theorem State.takeTlCu_su (s : State) (l : List TlCuMsg) : (s.takeTlCu l).su = s.su := rfl
@[simp] theorem State.takeTlCu_cu (s : State) (l : List TlCuMsg) : (s.takeTlCu l).cu = s.cu := rfl
@[simp] theorem State.takeTlCu_hp (s : State) (l : List TlCuMsg) : (s.takeTlCu l).hp = s.hp := rfl
@[simp] theorem State.takeTlCu_now (s : State) (l : List TlCuMsg) : (s.takeTlCu l).now = s.now := rfl
@[simp] theorem State.takeTlCu_phase (s : State) (l : List TlCuMsg) : (s.takeTlCu l).phase = s.phase := rfl
@[simp] theorem State.takeTlCu_pending (s : State) (l : List TlCuMsg) : (s.takeTlCu l).pending = s.pending := rfl

/-! ## State.takeTtNu -/

@[simp] theorem State.takeTtNu_si (s : State) (l : List TtNuMsg) : (s.takeTtNu l).si = s.si := rfl
@[simp] theorem State.takeTtNu_tl (s : State) (l : List TtNuMsg) : (s.takeTtNu l).tl = s.tl := rfl
@[simp] theorem State.takeTtNu_tt (s : State) (l : List TtNuMsg) : (s.takeTtNu l).tt = { s.tt with toNu := l } := rfl
@[simp] theorem State.takeTtNu_nu (s : State) (l : List TtNuMsg) : (s.takeTtNu l).nu = s.nu := rfl
@[simp] theorem State.takeTtNu_lu (s : State) (l : List TtNuMsg) : (s.takeTtNu l).lu = s.lu := rfl
@[simp] theorem State.takeTtNu_su (s : State) (l : List TtNuMsg) : (s.takeTtNu l).su = s.su := rfl
@[simp] theorem State.takeTtNu_cu (s : State) (l : List TtNuMsg) : (s.takeTtNu l).cu = s.cu := rfl
@[simp] theorem State.takeTtNu_hp (s : State) (l : List TtNuMsg) : (s.takeTtNu l).hp = s.hp := rfl
@[simp] theorem State.takeTtNu_now (s : State) (l : List TtNuMsg) : (s.takeTtNu l).now = s.now := rfl
@[simp] theorem State.takeTtNu_phase (s : State) (l : List TtNuMsg) : (s.takeTtNu l).phase = s.phase := rfl
@[simp] theorem State.takeTtNu_pending (s : State) (l : List TtNuMsg) : (s.takeTtNu l).pending = s.pending := rfl

/-! ## State.takeTtLu -/

@[simp] theorem State.takeTtLu_si (s : State) (l : List TtLuMsg) : (s.takeTtLu l).si = s.si := rfl
@[simp] theorem State.takeTtLu_tl (s : State) (l : List TtLuMsg) : (s.takeTtLu l).tl = s.tl := rfl
@[simp] theorem State.takeTtLu_tt (s : State) (l : List TtLuMsg) : (s.takeTtLu l).tt = { s.tt with toLu := l } := rfl
@[simp] theorem State.takeTtLu_nu (s : State) (l : List TtLuMsg) : (s.takeTtLu l).nu = s.nu := rfl
@[simp] theorem State.takeTtLu_lu (s : State) (l : List TtLuMsg) : (s.takeTtLu l).lu = s.lu := rfl
@[simp] theorem State.takeTtLu_su (s : State) (l : List TtLuMsg) : (s.takeTtLu l).su = s.su := rfl
@[simp] theorem State.takeTtLu_cu (s : State) (l : List TtLuMsg) : (s.takeTtLu l).cu = s.cu := rfl
@[simp] theorem State.takeTtLu_hp (s : State) (l : List TtLuMsg) : (s.takeTtLu l).hp = s.hp := rfl
@[simp] theorem State.takeTtLu_now (s : State) (l : List TtLuMsg) : (s.takeTtLu l).now = s.now := rfl
@[simp] theorem State.takeTtLu_phase (s : State) (l : List TtLuMsg) : (s.takeTtLu l).phase = s.phase := rfl
@[simp] theorem State.takeTtLu_pending (s : State) (l : List TtLuMsg) : (s.takeTtLu l).pending = s.pending := rfl

/-! ## State.takeDone -/

@[simp] theorem State.takeDone_si (s : State) (b : Block) (p : Port) : (s.takeDone b p).si = s.si := rfl
@[simp] theorem State.takeDone_tl (s : State) (b : Block) (p : Port) : (s.takeDone b p).tl = s.tl := rfl
@[simp] theorem State.takeDone_tt (s : State) (b : Block) (p : Port) : (s.takeDone b p).tt = s.tt := rfl
@[simp] theorem State.takeDone_nu (s : State) (b : Block) (p : Port) : (s.takeDone b p).nu = s.nu := rfl
@[simp] theorem State.takeDone_lu (s : State) (b : Block) (p : Port) : (s.takeDone b p).lu = s.lu := rfl
@[simp] theorem State.takeDone_su (s : State) (b : Block) (p : Port) :
    (s.takeDone b p).su = s.su.takeDone s.now b p := rfl
@[simp] theorem State.takeDone_cu (s : State) (b : Block) (p : Port) : (s.takeDone b p).cu = s.cu := rfl
@[simp] theorem State.takeDone_hp (s : State) (b : Block) (p : Port) : (s.takeDone b p).hp = s.hp := rfl
@[simp] theorem State.takeDone_now (s : State) (b : Block) (p : Port) : (s.takeDone b p).now = s.now := rfl
@[simp] theorem State.takeDone_phase (s : State) (b : Block) (p : Port) : (s.takeDone b p).phase = s.phase := rfl
@[simp] theorem State.takeDone_pending (s : State) (b : Block) (p : Port) :
    (s.takeDone b p).pending = s.pending := rfl

/-! ## Items by port and by line -/

@[simp] theorem PerPort.get_set_self {α : Type} (q : PerPort α) (p : Port) (a : α) : (q.set p a).get p = a := by
  cases p <;> rfl

theorem PerPort.get_set_other {α : Type} (q : PerPort α) {p r : Port} (a : α) (h : r ≠ p) :
    (q.set p a).get r = q.get r := by
  cases p <;> cases r <;> first | rfl | exact absurd rfl h

theorem PerPort.get_set {α : Type} (q : PerPort α) (p r : Port) (a : α) :
    (q.set p a).get r = if r = p then a else q.get r := by
  cases p <;> cases r <;> rfl

@[simp] theorem PerPort.set_get {α : Type} (q : PerPort α) (p : Port) : q.set p (q.get p) = q := by
  cases p <;> rfl

@[simp] theorem PerPort.set_set {α : Type} (q : PerPort α) (p : Port) (a b : α) :
    (q.set p a).set p b = q.set p b := by
  cases p <;> rfl

@[simp] theorem PerPort.get_all {α : Type} (a : α) (p : Port) : (PerPort.all a).get p = a := by
  cases p <;> rfl

theorem PerPort.ext_get {α : Type} {q r : PerPort α} (h : ∀ p, q.get p = r.get p) : q = r := by
  cases q
  cases r
  have h0 := h .p0
  have h1 := h .p1
  have h2 := h .p2
  have h3 := h .p3
  simp only [PerPort.get] at h0 h1 h2 h3
  subst h0 h1 h2 h3
  rfl

theorem PerPort.get_push {α : Type} (q : PerPort (List α)) (p r : Port) (a : α) :
    (q.push p a).get r = if r = p then q.get p ++ [a] else q.get r :=
  PerPort.get_set q p r _

@[simp] theorem PerLine.get_set_self {α : Type} (q : PerLine α) (l : Line) (a : α) : (q.set l a).get l = a := by
  cases l <;> rfl

theorem PerLine.get_set_other {α : Type} (q : PerLine α) {l m : Line} (a : α) (h : m ≠ l) :
    (q.set l a).get m = q.get m := by
  cases l <;> cases m <;> first | rfl | exact absurd rfl h

theorem PerLine.get_set {α : Type} (q : PerLine α) (l m : Line) (a : α) :
    (q.set l a).get m = if m = l then a else q.get m := by
  cases l <;> cases m <;> rfl

@[simp] theorem PerLine.set_get {α : Type} (q : PerLine α) (l : Line) : q.set l (q.get l) = q := by
  cases l <;> rfl

@[simp] theorem PerLine.get_all {α : Type} (a : α) (l : Line) : (PerLine.all a).get l = a := by
  cases l <;> rfl

end Sys2Proof.Machine
end

