-- ==== Sys2Proof/Laws/Ops.lean ====
section
/-! SUPPORT. The shared operations, said once each: the gate of a reset, the saturating counters, the sets of causes,
the timers. -/

namespace Sys2Proof.Machine

/-! ## The gate of a reset (R199) -/

/-- Outside a reset a happening has its effect. -/
theorem State.running_of_running {s : State} {f : State → State} (h : s.phase = .running) : s.running f = .next (f s) := by
  unfold State.running; rw [h]

/-- In a reset a happening changes nothing. -/
theorem State.running_of_reset {s : State} {f : State → State} (h : s.phase ≠ .running) : s.running f = .next s := by
  unfold State.running; cases hp : s.phase <;> simp_all

/-- A gated happening always answers a next state: its effect, or no change. -/
theorem State.running_cases (s : State) (f : State → State) :
    (s.phase = .running ∧ s.running f = .next (f s)) ∨ (s.phase ≠ .running ∧ s.running f = .next s) := by
  by_cases h : s.phase = .running
  · exact .inl ⟨h, State.running_of_running h⟩
  · exact .inr ⟨h, State.running_of_reset h⟩

/-! ## Counters -/

theorem satAdd16_toNat (c : Word) (n : Nat) : (satAdd16 c n).toNat = min 65535 (c.toNat + n) := by
  unfold satAdd16; rw [BitVec.toNat_ofNat, Nat.mod_eq_of_lt]; omega

theorem satInc8_toNat (c : BitVec 8) : (satInc8 c).toNat = min 255 (c.toNat + 1) := by
  unfold satInc8; rw [BitVec.toNat_ofNat, Nat.mod_eq_of_lt]; omega

/-- An 8-bit counter stays at 255, and counts below it. -/
theorem satInc8_eq (c : BitVec 8) : satInc8 c = if c = 255 then 255 else c + 1 := by
  revert c; decide

/-! ## Sets of causes -/

/-- Health is good exactly when no cause is active (R21). -/
theorem CauseSet.good_iff (a : CauseSet) : a.good = true ↔ a = CauseSet.empty := by
  obtain ⟨f, l, s, t⟩ := a
  cases f <;> cases l <;> cases s <;> cases t <;> decide

/-- A cause differs between two sets when it is in one of them only. -/
theorem CauseSet.differing_eq (a b : CauseSet) :
    a.differing b =
      ⟨xor a.frontEnd b.frontEnd, xor a.lowAmplitude b.lowAmplitude, xor a.saturated b.saturated, xor a.stale b.stale⟩ := by
  obtain ⟨f, l, s, t⟩ := a
  obtain ⟨f', l', s', t'⟩ := b
  have h : ∀ x y : Bool, ((x && !y) || (y && !x)) = xor x y := by decide
  simp only [CauseSet.differing, CauseSet.diff, CauseSet.union, h]

/-! ## Timers (R198) -/

/-- The running timers: the stale timer, the timers of the OPEN sessions, the pulse timers. -/
theorem State.mem_timers (s : State) (u : Nat) :
    u ∈ s.timers ↔ s.si.staleTimer = some u ∨ (∃ p, (s.su.sessions.get p).runningTimer = some u) ∨
      ∃ l, (s.lu.lines.get l).state.timer = some u := by
  simp only [State.timers, List.mem_append, Option.mem_toList, List.mem_filterMap, or_assoc]
  refine or_congr Iff.rfl (or_congr ⟨fun ⟨p, _, h⟩ => ⟨p, h⟩, fun ⟨p, h⟩ => ⟨p, ?_, h⟩⟩
    ⟨fun ⟨l, _, h⟩ => ⟨l, h⟩, fun ⟨l, h⟩ => ⟨l, ?_, h⟩⟩)
  · cases p <;> decide
  · cases l <;> decide

/-- The session timer of an OPEN session runs, and no other does (R149). -/
theorem Session.runningTimer_eq_some (r : Session) (u : Nat) :
    r.runningTimer = some u ↔ r.state = .opened ∧ r.timer = some u := by
  unfold Session.runningTimer
  cases r.state <;> simp

/-- The pulse timer of a PULSING line runs to the tick after its pulse end, and no other does (R139). -/
theorem LineState.timer_eq_some (st : LineState) (u : Nat) :
    st.timer = some u ↔ ∃ p e, st = .pulsing p e ∧ u = e + 1 := by
  cases st <;> simp [LineState.timer, eq_comm]

/-- The timebase may go to a tick it has reached, or that no running timer's tick comes before. -/
theorem State.mayReach_iff (s : State) (t : Nat) : s.mayReach t = true ↔ t ≤ s.now ∨ ∀ u ∈ s.timers, t ≤ u := by
  simp [State.mayReach]

/-- An expiry named by a command takes place at its tick, or is not offered and changes nothing. -/
theorem State.expireAt_cases (s : State) (t : Nat) (f : State → State) :
    (s.mayReach t = true ∧ s.expireAt t f = f (s.advanceTo t)) ∨ (s.mayReach t = false ∧ s.expireAt t f = s) := by
  unfold State.expireAt
  cases s.mayReach t
  · exact .inr ⟨rfl, rfl⟩
  · exact .inl ⟨rfl, rfl⟩

/-- An expiry whose tick the timebase has reached takes place. -/
theorem State.expireAt_reached {s : State} {t : Nat} {f : State → State} (h : t ≤ s.now) :
    s.expireAt t f = f (s.advanceTo t) := by
  unfold State.expireAt
  rw [if_pos ((State.mayReach_iff s t).mpr (.inl h))]

end Sys2Proof.Machine
end

