-- ==== Sys2Proof/Laws/ConfigUnit.lean ====
section
/-! SUPPORT. The Configuration Unit's operations, said once: the wait list without one port, the lease handed on, and the
cross-field checks. -/

namespace Sys2Proof.Machine

/-- Argument 1 of LEASE_TAKE is refused from 2 on (R163). -/
theorem waitOf_eq_none {w : Byte} (h : 2 ≤ w.toNat) : waitOf w = none := by
  unfold waitOf; split <;> simp_all

/-- A wait list without one of its ports, the order of the others kept (R165, R167). -/
theorem waiting_without {p : Port} {before after : List Port} (once : (before ++ p :: after).Nodup) :
    (before ++ p :: after).filter (· ≠ p) = before ++ after := by
  rw [List.nodup_append, List.nodup_cons] at once
  have keep : ∀ l : List Port, p ∉ l → l.filter (· ≠ p) = l := by
    intro l h
    rw [List.filter_eq_self]
    intro x hx
    have : x ≠ p := by rintro rfl; exact h hx
    simpa using this
  rw [List.filter_append, List.filter_cons, keep before (fun h => once.2.2 p h p (by simp) rfl), keep after once.2.1.1]
  simp

/-- A port that does not wait leaves the wait list as it is. -/
theorem waiting_without_absent {p : Port} {l : List Port} (h : p ∉ l) : l.filter (· ≠ p) = l := by
  rw [List.filter_eq_self]
  intro x hx
  have : x ≠ p := by rintro rfl; exact h hx
  simpa using this

/-- The position of a waiting port is one more than the number of ports before it (R163). -/
theorem ConfigUnit.position_eq {p : Port} {before after : List Port} (h : p ∉ before) :
    position p (before ++ p :: after) = before.length + 1 := by
  unfold position; rw [List.idxOf_append_of_notMem h]; simp

/-- The lease handed on: to the head of the wait list, or to no port, with its report (R164, R166). -/
theorem ConfigUnit.handOn_eq (c : ConfigUnit) :
    c.handOn = { c with
      holder := c.waiting.head?, waiting := c.waiting.tail
      toNu := c.toNu ++ [.lease c.waiting.head? c.waiting.head?.isSome] } := by
  unfold handOn setHolder
  cases c.waiting <;> simp

/-- The cross-field checks in order (R174). -/
theorem Bank.crossFailure_eq (b : Bank) :
    b.crossFailure =
      if b.aHigh ≤ b.aLow then some .aLow
      else if b.tu ≤ b.td then some .td
      else if b.floor < b.ceiling then some .ceiling
      else none := by
  unfold Bank.crossFailure; simp only [not_lt, not_le]

/-- A bank that fails no check satisfies each of them (R174). -/
theorem Bank.crossFailure_eq_none (b : Bank) :
    b.crossFailure = none ↔ b.aLow < b.aHigh ∧ b.td < b.tu ∧ b.ceiling ≤ b.floor := by
  rw [Bank.crossFailure_eq]
  split
  · simp; omega
  · split
    · simp; omega
    · split
      · rename_i h; simp [h]
      · rename_i h1 h2 h3; simp [not_le.mp h1, not_le.mp h2, not_lt.mp h3]

/-- A swap of the banks makes the standby bank the active one (R170). -/
theorem ConfigUnit.activeBank_swap (c : ConfigUnit) : c.swap.activeBank = c.standbyBank := by
  unfold swap activeBank standbyBank; cases c.activeIndex <;> rfl

theorem ConfigUnit.standbyBank_swap (c : ConfigUnit) : c.swap.standbyBank = c.activeBank := by
  unfold swap activeBank standbyBank; cases c.activeIndex <;> rfl

end Sys2Proof.Machine
end

