-- ==== Sys2Proof/Laws/HostPort.lean ====
section
/-! SUPPORT. A transaction on a host port, said once: what clocking levels and whole bytes does to it, what SDOn shows
meanwhile, the check byte of a frame, and a request read back from its code and argument bytes. -/

namespace Sys2Proof.Machine

/-- Eight levels clocked from a byte boundary complete one byte, which is kept while there is room. -/
theorem Transaction.clock_byte (t : Transaction) (n : Nat) (b : Byte) (hc : t.bitCount = 8 * n) (hp : t.partialByte = 0) :
    ((List.range 8).map b.getMsbD).foldl Transaction.clock t =
      { t with
        bitCount := 8 * (n + 1)
        received := if t.received.length < Config.longestFrame then t.received ++ [b] else t.received } := by
  obtain ⟨kind, image, bitCount, received, partialByte⟩ := t
  dsimp only at hc hp
  subst hc hp
  have bits : (BitVec.shiftConcat (BitVec.shiftConcat (BitVec.shiftConcat (BitVec.shiftConcat (BitVec.shiftConcat
      (BitVec.shiftConcat (BitVec.shiftConcat (BitVec.shiftConcat (0 : Byte) (b.getMsbD 0)) (b.getMsbD 1)) (b.getMsbD 2))
      (b.getMsbD 3)) (b.getMsbD 4)) (b.getMsbD 5)) (b.getMsbD 6)) (b.getMsbD 7)) = b := by
    revert b; decide
  have range8 : List.range 8 = [0, 1, 2, 3, 4, 5, 6, 7] := rfl
  have step : ∀ (k : Nat) (x : Byte) (l : Bool), k < 7 →
      Transaction.clock ⟨kind, image, 8 * n + k, received, x⟩ l =
        ⟨kind, image, 8 * n + (k + 1), received, x.shiftConcat l⟩ := by
    intro k x l hk
    unfold Transaction.clock
    rw [if_neg (by dsimp only; omega)]
    rfl
  rw [range8]
  simp only [List.map_cons, List.map_nil, List.foldl_cons, List.foldl_nil]
  rw [show (⟨kind, image, 8 * n, received, 0⟩ : Transaction) = ⟨kind, image, 8 * n + 0, received, 0⟩ from rfl]
  rw [step 0 _ _ (by omega), step 1 _ _ (by omega), step 2 _ _ (by omega), step 3 _ _ (by omega), step 4 _ _ (by omega),
    step 5 _ _ (by omega), step 6 _ _ (by omega)]
  unfold Transaction.clock
  rw [if_pos (by dsimp only; omega)]
  dsimp only
  rw [bits]
  rfl

/-- Whole bytes clocked from a byte boundary: every bit is counted, and the first bytes are kept up to the longest
request frame (R182). -/
theorem Transaction.clock_bytes (bytes : List Byte) (t : Transaction) (n : Nat) (hc : t.bitCount = 8 * n)
    (hp : t.partialByte = 0) (hr : t.received.length ≤ Config.longestFrame) :
    (byteLevels bytes).foldl Transaction.clock t =
      { t with
        bitCount := 8 * (n + bytes.length)
        received := t.received ++ bytes.take (Config.longestFrame - t.received.length) } := by
  induction bytes generalizing t n with
  | nil =>
    obtain ⟨kind, image, bitCount, received, partialByte⟩ := t
    dsimp only at hc; subst hc
    simp [byteLevels]
  | cons b bytes ih =>
    rw [byteLevels, List.flatMap_cons, List.foldl_append, Transaction.clock_byte t n b hc hp]
    have next := ih { t with
        bitCount := 8 * (n + 1)
        received := if t.received.length < Config.longestFrame then t.received ++ [b] else t.received } (n + 1) rfl hp
      (by dsimp only; split
          · rw [List.length_append, List.length_singleton]; omega
          · exact hr)
    rw [show bytes.flatMap (fun b => (List.range 8).map b.getMsbD) = byteLevels bytes from rfl, next]
    by_cases room : t.received.length < Config.longestFrame
    · simp only [room, if_true, List.length_append, List.length_cons, List.length_nil, List.append_assoc]
      rw [show Config.longestFrame - t.received.length = (Config.longestFrame - (t.received.length + (0 + 1))) + 1 by omega,
        List.take_succ_cons]
      simp only [List.cons_append, List.nil_append]
      rw [show n + 1 + bytes.length = n + (bytes.length + 1) by omega]
    · simp only [room, if_false, List.length_cons]
      rw [show Config.longestFrame - t.received.length = 0 by omega]
      simp only [List.take_zero]
      rw [show n + 1 + bytes.length = n + (bytes.length + 1) by omega]

/-- Any levels clocked are counted one by one, and leave the kind and the image alone (R182). -/
theorem Transaction.clock_counts (levels : List Bool) (t : Transaction) :
    (levels.foldl Transaction.clock t).bitCount = t.bitCount + levels.length ∧
      (levels.foldl Transaction.clock t).kind = t.kind ∧ (levels.foldl Transaction.clock t).image = t.image := by
  induction levels generalizing t with
  | nil => exact ⟨rfl, rfl, rfl⟩
  | cons l levels ih =>
    rw [List.foldl_cons]
    obtain ⟨h1, h2, h3⟩ := ih (t.clock l)
    refine ⟨?_, ?_, ?_⟩
    · rw [h1, List.length_cons]
      have : (t.clock l).bitCount = t.bitCount + 1 := by unfold Transaction.clock; dsimp only; split <;> rfl
      omega
    · rw [h2]; unfold Transaction.clock; dsimp only; split <;> rfl
    · rw [h3]; unfold Transaction.clock; dsimp only; split <;> rfl

/-- Fewer than eight levels from a byte boundary complete no byte. -/
theorem Transaction.clock_part (levels : List Bool) (t : Transaction) (h : t.bitCount % 8 + levels.length < 8) :
    (levels.foldl Transaction.clock t).received = t.received := by
  induction levels generalizing t with
  | nil => rfl
  | cons l levels ih =>
    rw [List.length_cons] at h
    have count : (t.clock l).bitCount = t.bitCount + 1 := by unfold Transaction.clock; dsimp only; split <;> rfl
    rw [List.foldl_cons, ih (t.clock l) (by rw [count]; omega)]
    unfold Transaction.clock
    rw [if_neg (by omega)]

/-- Edges of SCKn with no transaction in progress are ignored (R182). -/
theorem HostPort.clock_ignored (levels : List Bool) (h : HostPort) (ht : h.transaction = none) :
    levels.foldl HostPort.clock h = h := by
  induction levels with
  | nil => rfl
  | cons l levels ih =>
    have : h.clock l = h := by unfold HostPort.clock; rw [ht]
    rw [List.foldl_cons, this, ih]

/-- Edges of SCKn in a transaction: its bits go in as Transaction.clock says, SDOn shows the image bit by bit from where it
stands, and moves on by one bit for each edge (R182, R183). -/
theorem HostPort.clock_shifts (levels : List Bool) (h : HostPort) (t : Transaction) (ht : h.transaction = some t)
    (hs : h.sdo = .driven (sdoBit t.image t.bitCount)) :
    levels.foldl HostPort.clock h =
      { h with
        transaction := some (levels.foldl Transaction.clock t)
        sdo := .driven (sdoBit t.image (t.bitCount + levels.length))
        sdoShown := h.sdoShown ++ (List.range levels.length).map (fun k => sdoBit t.image (t.bitCount + k)) } := by
  induction levels generalizing h t with
  | nil =>
    obtain ⟨slot, epoch, queueLength, transaction, sdo, sdoShown, toSu⟩ := h
    dsimp only at ht hs
    subst ht hs
    simp
  | cons l levels ih =>
    have one : h.clock l = { h with
        transaction := some (t.clock l), sdo := .driven (sdoBit t.image (t.bitCount + 1))
        sdoShown := h.sdoShown ++ [sdoBit t.image t.bitCount] } := by
      unfold HostPort.clock
      rw [ht, hs]
      rfl
    have next : (t.clock l).bitCount = t.bitCount + 1 ∧ (t.clock l).image = t.image := by
      unfold Transaction.clock
      split <;> exact ⟨rfl, rfl⟩
    rw [List.foldl_cons, one, ih _ (t.clock l) rfl (by rw [next.1, next.2])]
    rw [next.1, next.2, List.foldl_cons, List.length_cons, List.range_succ_eq_map, List.map_cons, List.map_map]
    simp only [List.append_assoc, List.singleton_append, Nat.add_zero, Function.comp_def, Nat.succ_eq_add_one,
      Nat.add_assoc, Nat.add_comm 1]

@[simp] theorem HostPort.fall_sdoShown (h : HostPort) : h.fall.sdoShown = [] := rfl

@[simp] theorem HostPort.hold_sdoShown (h : HostPort) (r : Response) : (h.hold r).sdoShown = h.sdoShown := rfl

/-- Closing a transaction lets go of SDOn and keeps what SDOn showed, the epoch and the queue length (R182). -/
theorem HostPort.rise_keeps (h : HostPort) (p : Port) (t : Transaction) :
    (h.rise p t).transaction = none ∧ (h.rise p t).sdo = .highZ ∧ (h.rise p t).sdoShown = h.sdoShown ∧
      (h.rise p t).epoch = h.epoch ∧ (h.rise p t).queueLength = h.queueLength := by
  unfold HostPort.rise
  cases t.kind <;> dsimp only
  all_goals first
    | exact ⟨rfl, rfl, rfl, rfl, rfl⟩
    | (split <;> exact ⟨rfl, rfl, rfl, rfl, rfl⟩)

/-- The levels of the bytes of a list, bit by bit (R182). -/
theorem byteLevels_getElem? (bytes : List Byte) (k : Nat) :
    (byteLevels bytes)[k]? = (bytes[k / 8]?).map (fun b => b.getMsbD (k % 8)) := by
  induction bytes generalizing k with
  | nil => rfl
  | cons b bytes ih =>
    rw [byteLevels, List.flatMap_cons]
    by_cases h : k < 8
    · rw [List.getElem?_append_left (by simpa using h), show k / 8 = 0 by omega, show k % 8 = k by omega]
      simp [h]
    · have len : ((List.range 8).map b.getMsbD).length = 8 := by simp
      rw [List.getElem?_append_right (by omega), len]
      obtain ⟨j, rfl⟩ := Nat.exists_eq_add_of_le (Nat.le_of_not_lt h)
      have down := ih j
      rw [byteLevels] at down
      rw [show 8 + j - 8 = j by omega, down, show (8 + j) / 8 = j / 8 + 1 by omega, show (8 + j) % 8 = j % 8 by omega]
      rfl

/-- What SDOn shifts out: the levels of the image's bytes, and ones after them (R182, R183). -/
theorem sdoBit_eq (image : List Byte) (k : Nat) : sdoBit image k = ((byteLevels image)[k]?).getD true := by
  rw [sdoBit, byteLevels_getElem?]
  cases image[k / 8]? with
  | some b => rfl
  | none =>
    have ones : ∀ j < 8, (0xFF : Byte).getMsbD j = true := by decide
    exact ones _ (Nat.mod_lt _ (by omega))

/-- The byte that makes a sum 00h (R185, R192). -/
theorem sum8_append (a b : List Byte) : sum8 (a ++ b) = sum8 a + sum8 b := by
  have acc : ∀ (l : List Byte) (x : Byte), l.foldl (· + ·) x = x + sum8 l := by
    intro l
    induction l with
    | nil => intro x; simp [sum8]
    | cons a l ih =>
      intro x
      rw [sum8, List.foldl_cons, List.foldl_cons, ih, ih (0 + a), show (0 : Byte) + a = a from BitVec.zero_add a, BitVec.add_assoc]
  rw [sum8, List.foldl_append, acc]; rfl

/-- A list of bytes with its check byte sums to 00h (R185). -/
theorem sum8_withCheck (l : List Byte) : sum8 (withCheck l) = 0 := by
  rw [withCheck, sum8_append]
  have : sum8 [0 - sum8 l] = 0 - sum8 l := by simp [sum8]
  rw [this]
  simp

/-- The 8-bit sum as a number. -/
theorem sum8_toNat (l : List Byte) : (sum8 l).toNat = (l.map BitVec.toNat).sum % 256 := by
  induction l with
  | nil => rfl
  | cons a l ih =>
    rw [show a :: l = [a] ++ l from rfl, sum8_append, BitVec.toNat_add, ih]
    simp [sum8]

/-- A request read back from its code and its argument bytes (section 11.3). -/
theorem ReqBody.ofBytes_args (b : ReqBody) : ReqBody.ofBytes b.code b.args = some b := by
  have w : ∀ x : Word, word16 (x.extractLsb' 8 8) (x.extractLsb' 0 8) = x := by
    intro x
    apply BitVec.eq_of_getLsbD_eq
    intro i hi
    simp only [word16, BitVec.getLsbD_append, BitVec.getLsbD_extractLsb']
    by_cases h : i < 8
    · simp [h]
    · simp [h, show i - 8 < 8 by omega, show 8 + (i - 8) = i by omega]
  cases b with
  | join t s => exact congrArg some (congrArg₂ ReqBody.join (w t) rfl)
  | book a d ac l m dist r c t =>
    have h : ∀ a' d' r' t', a' = a → d' = dist → r' = r → t' = t →
        some (ReqBody.book a' d ac l m d' r' c t') = some (ReqBody.book a d ac l m dist r c t) := by
      rintro _ _ _ _ rfl rfl rfl rfl; rfl
    exact h _ _ _ _ (w a) (w dist) (w r) (w t)
  | amend i s ch a d t r =>
    have h : ∀ s' a' t' r', s' = s → a' = a → t' = t → r' = r →
        some (ReqBody.amend i s' ch a' d t' r') = some (ReqBody.amend i s ch a d t r) := by
      rintro _ _ _ _ rfl rfl rfl rfl; rfl
    exact h _ _ _ _ (w s) (w a) (w t) (w r)
  | cancel i s => exact congrArg some (congrArg₂ ReqBody.cancel rfl (w s))
  | suspend i s => exact congrArg some (congrArg₂ ReqBody.suspend rfl (w s))
  | resume i s => exact congrArg some (congrArg₂ ReqBody.resume rfl (w s))
  | paramWrite f v => exact congrArg some (congrArg₂ ReqBody.paramWrite rfl (w v))
  | _ => rfl

/-- The argument byte count of a request's code (section 11.3). -/
theorem argBytes_code (b : ReqBody) : argBytes b.code = some b.args.length := by
  cases b <;> rfl

/-- No request has more than 13 argument bytes (section 11.3). -/
theorem ReqBody.args_length (b : ReqBody) : b.args.length ≤ 13 := by
  cases b <;> simp [ReqBody.args, bytes16]

end Sys2Proof.Machine
end

