-- ==== Sys2Proof/Laws/LineUnit.lean ====
section
/-! SUPPORT. The Line Unit's operations, said once: the owner of a line, a pulse driven, a release, and the lines a
release-all frees. -/

namespace Sys2Proof.Machine

theorem LineState.owner_eq_some (st : LineState) (p : Port) :
    st.owner = some p ↔ st = .idle p ∨ ∃ e, st = .pulsing p e := by
  cases st <;> simp [LineState.owner]

/-- A pulse driven keeps the owner, the polarity, the width and the references of the line (R139, R140). -/
theorem LineRecord.strike_keeps (r : LineRecord) (now : Nat) :
    (r.strike now).state.owner = r.state.owner ∧ (r.strike now).polarity = r.polarity ∧
      (r.strike now).width = r.width ∧ (r.strike now).refs = r.refs := by
  unfold LineRecord.strike; cases h : r.state <;> simp [LineRecord.enter, LineState.owner, h]

/-- A released line has no owner, and keeps its polarity, its width, its merged count and its references (R138). -/
theorem LineRecord.release_keeps (r : LineRecord) :
    r.release.state = .unowned ∧ r.release.polarity = r.polarity ∧ r.release.width = r.width ∧
      r.release.merged = r.merged ∧ r.release.refs = r.refs := ⟨rfl, rfl, rfl, rfl, rfl⟩

/-- Lines released in turn for port p: those it owns, each with its line owner message (R142). -/
theorem LineUnit.releaseOwned_fold (p : Port) (ls : List Line) (once : ls.Nodup) (u : LineUnit) :
    ∃ lines, ls.foldl (releaseOwned p) u = { u with
        lines := lines
        toTt := u.toTt ++
          (ls.filter (fun l => (u.lines.get l).state.owner == some p)).map (fun l => (⟨l, none⟩ : LineOwner)) } ∧
      ∀ l, lines.get l =
        if l ∈ ls ∧ (u.lines.get l).state.owner = some p then (u.lines.get l).release else u.lines.get l := by
  induction ls generalizing u with
  | nil => exact ⟨u.lines, by simp, by simp⟩
  | cons a ls ih =>
    rw [List.nodup_cons] at once
    obtain ⟨lines, e1, e2⟩ := ih once.2 (releaseOwned p u a)
    rw [List.foldl_cons, e1]
    by_cases h : (u.lines.get a).state.owner = some p
    · have hu : releaseOwned p u a =
          { u with lines := u.lines.set a (u.lines.get a).release, toTt := u.toTt ++ [⟨a, none⟩] } := by
        unfold releaseOwned; rw [if_pos h]; rfl
      rw [hu] at e2 ⊢
      refine ⟨lines, ?_, ?_⟩
      · simp only [h, BEq.rfl, List.filter_cons_of_pos, List.map_cons, List.append_assoc, List.cons_append,
          List.nil_append]
        congr 3
        rw [List.map_congr_left (g := fun l => (⟨l, none⟩ : LineOwner)) (fun _ _ => rfl)]
        congr 1; apply List.filter_congr; intro x hx
        rw [PerLine.get_set, if_neg (by rintro rfl; exact once.1 hx)]
      · intro l; rw [e2 l]; dsimp only; rw [PerLine.get_set]
        by_cases e : l = a
        · subst e; simp [once.1, h]
        · simp [e]
    · have hu : releaseOwned p u a = u := by unfold releaseOwned; rw [if_neg h]
      rw [hu] at e2 ⊢
      refine ⟨lines, ?_, ?_⟩
      · simp [h]
      · intro l; rw [e2 l]
        by_cases e : l = a
        · subst e; simp [once.1, h]
        · simp [e]

end Sys2Proof.Machine
end

