-- ==== Sys2Proof/Laws/NoticeUnit.lean ====
section
/-! SUPPORT. The Notice Unit's operations, said once: a change of a port's queue, what a notice other than FIRED does to
each port, a release, and the owed list. -/

namespace Sys2Proof.Machine

namespace NoticeUnit

theorem releaseIfFinal_eq (n : NoticeUnit) (f : Fired) :
    n.releaseIfFinal f = { n with toTt := n.toTt ++ if f.final then [⟨f.index, f.serial⟩] else [] } := by
  unfold releaseIfFinal; split <;> simp

/-- The end of a happening that changes a queue: attention line and queue length follow (R130, R131). -/
theorem commit_eq (n : NoticeUnit) (p : Port) (r : NoticePort) :
    n.commit p r = { n with
      ports := n.ports.set p { r with atnLow := decide (r.queue ≠ []) }
      toHp := n.toHp.set p (n.toHp.get p ++
        if r.queue.length = (n.ports.get p).queue.length then [] else [.queueLength r.queue.length]) } := by
  have empty : (!r.queue.isEmpty) = decide (r.queue ≠ []) := by cases r.queue <;> simp
  unfold commit
  rw [empty]
  split
  · simp
  · rfl

/-- A notice given to one port touches no other port, no copy, and neither TT nor SU (R116, R118, R119). -/
theorem giveTo_frame (n : NoticeUnit) (p : Port) (x : Notice) :
    (n.giveTo p x).copies = n.copies ∧ (n.giveTo p x).toTt = n.toTt ∧ (n.giveTo p x).toSu = n.toSu ∧
      ∀ q, q ≠ p → (n.giveTo p x).ports.get q = n.ports.get q ∧ (n.giveTo p x).toHp.get q = n.toHp.get q := by
  unfold giveTo
  dsimp only
  split
  · exact ⟨rfl, rfl, rfl, fun _ _ => ⟨rfl, rfl⟩⟩
  · split
    · rw [commit_eq]
      exact ⟨rfl, rfl, rfl, fun q h => ⟨PerPort.get_set_other _ _ h, PerPort.get_set_other _ _ h⟩⟩
    · exact ⟨rfl, rfl, rfl, fun q h => ⟨PerPort.get_set_other _ _ h, rfl⟩⟩

/-- What a notice other than FIRED does to the port it is given to (R116, R118, R119). -/
theorem giveTo_self (n : NoticeUnit) (p : Port) (x : Notice) :
    let r := n.ports.get p
    let n' := n.giveTo p x
    (r.opened = false → n'.ports.get p = r ∧ n'.toHp.get p = n.toHp.get p) ∧
      (r.opened = true → r.queue.length < 16 →
        n'.ports.get p = { r.post x with atnLow := true } ∧
          n'.toHp.get p = n.toHp.get p ++ [.queueLength (r.queue.length + 1)]) ∧
      (r.opened = true → 16 ≤ r.queue.length →
        n'.ports.get p = { r with summaryOwed := true } ∧ n'.toHp.get p = n.toHp.get p) := by
  refine ⟨fun closed => ?_, fun opened room => ?_, fun opened full => ?_⟩
  · simp [giveTo, closed]
  · simp [giveTo, opened, NoticePort.hasRoom, Config.queueDepth, room, commit_eq, NoticePort.post]
  · simp [giveTo, opened, NoticePort.hasRoom, Config.queueDepth, not_lt.mpr full, setPort]

/-- A port whose subscription set lacks the kind is left alone, and so are the copies, TT and SU (R119). -/
theorem giveSubscribed_frame (n : NoticeUnit) (kind : Subscriptions → Bool) (x : Notice) :
    (n.giveSubscribed kind x).copies = n.copies ∧ (n.giveSubscribed kind x).toTt = n.toTt ∧
      (n.giveSubscribed kind x).toSu = n.toSu ∧
      ∀ q, kind (n.ports.get q).subs = false →
        (n.giveSubscribed kind x).ports.get q = n.ports.get q ∧
          (n.giveSubscribed kind x).toHp.get q = n.toHp.get q := by
  have fold : ∀ (l : List Port) (n : NoticeUnit),
      let n' := l.foldl (fun n p => if kind (n.ports.get p).subs then n.giveTo p x else n) n
      n'.copies = n.copies ∧ n'.toTt = n.toTt ∧ n'.toSu = n.toSu ∧
        ∀ q, kind (n.ports.get q).subs = false → n'.ports.get q = n.ports.get q ∧ n'.toHp.get q = n.toHp.get q := by
    intro l
    induction l with
    | nil => intro n; exact ⟨rfl, rfl, rfl, fun _ _ => ⟨rfl, rfl⟩⟩
    | cons p l ih =>
      intro n
      simp only [List.foldl_cons]
      by_cases wanted : kind (n.ports.get p).subs = true
      · rw [if_pos wanted]
        obtain ⟨g1, g2, g3, g4⟩ := giveTo_frame n p x
        obtain ⟨i1, i2, i3, i4⟩ := ih (n.giveTo p x)
        refine ⟨i1.trans g1, i2.trans g2, i3.trans g3, fun q hq => ?_⟩
        have other : q ≠ p := fun e => by rw [e, wanted] at hq; cases hq
        obtain ⟨a, b⟩ := i4 q (by rw [(g4 q other).1]; exact hq)
        exact ⟨a.trans (g4 q other).1, b.trans (g4 q other).2⟩
      · rw [if_neg wanted]; exact ih n
  exact fold Port.inOrder n

end NoticeUnit

/-! ## The owed list (R113, R117) -/

theorem Fired.merge_index (item report : Fired) (h : item.index = report.index) :
    (item.merge report).index = report.index := by
  unfold Fired.merge; split
  · exact h
  · rfl

/-- A report joins the owed list under its own index only. -/
theorem mem_owe {report y : Fired} {l : List Fired} (h : y ∈ owe report l) : y.index = report.index ∨ y ∈ l := by
  induction l with
  | nil => rw [owe, List.mem_singleton] at h; exact .inl (by rw [h])
  | cons a l ih =>
    unfold owe at h
    split at h
    · rcases List.mem_cons.mp h with rfl | h
      · exact .inl rfl
      · exact .inr h
    · split at h
      · rename_i same
        rcases List.mem_cons.mp h with rfl | h
        · exact .inl (Fired.merge_index a report same.symm)
        · exact .inr (List.mem_cons_of_mem _ h)
      · rcases List.mem_cons.mp h with rfl | h
        · exact .inr List.mem_cons_self
        · exact (ih h).imp_right (List.mem_cons_of_mem _)

end Sys2Proof.Machine
end

