-- ==== Sys2Proof/Laws/SampleIntake.lean ====
section
/-! SUPPORT. Sample Intake, said once: the receive shifter and its clock count over a frame, the parity of a group of bits,
the gap between two frame numbers, and the range of the corrected samples. -/

namespace Sys2Proof.Machine

/-! ## The sample link (R5, R6) -/

/-- The clock count of a frame, which stops at 33; the levels clocked leave the frame open (R5). -/
theorem Reception.clock_counts (levels : List Bool) (r : Reception) (h : r.clocks ≤ 33) :
    (levels.foldl Reception.clock r).clocks = min 33 (r.clocks + levels.length) ∧
      (levels.foldl Reception.clock r).inFrame = r.inFrame := by
  induction levels generalizing r with
  | nil => simp; omega
  | cons a l ih =>
    have next := ih (r.clock a) (by simp [Reception.clock, Config.clockCountStop])
    simp only [Reception.clock, Config.clockCountStop] at next
    simp only [List.foldl_cons, Reception.clock, Config.clockCountStop, List.length_cons]
    exact ⟨by rw [next.1]; omega, next.2⟩

/-- One more of a frame's bits, most significant first. -/
theorem shiftConcat_msb (f : BitVec 32) (n : Nat) (h : n < 32) :
    (f >>> (32 - n)).shiftConcat (f.getMsbD n) = f >>> (31 - n) := by
  apply BitVec.eq_of_getLsbD_eq
  intro i hi
  rw [BitVec.getLsbD_shiftConcat]
  rcases i with _ | i
  · simp [BitVec.getMsbD, h, hi]
  · simp [hi]
    congr 1; omega

/-- The first n bits of a frame clocked in stand at the low end of the shifter. -/
theorem Reception.clock_bits (f : BitVec 32) (n : Nat) (h : n ≤ 32) :
    ((List.range n).map f.getMsbD).foldl Reception.clock ⟨true, 0, 0⟩ = ⟨true, f >>> (32 - n), n⟩ := by
  induction n with
  | zero => simp; apply BitVec.eq_of_toNat_eq; simp [Nat.shiftRight_eq_div_pow]; omega
  | succ n ih =>
    rw [List.range_succ, List.map_append, List.foldl_append, ih (by omega)]
    simp only [List.map, List.foldl, Reception.clock]
    rw [if_pos (show n < Config.frameClocks by simp [Config.frameClocks]; omega), shiftConcat_msb f n (by omega)]
    simp only [Reception.mk.injEq, Config.clockCountStop]
    refine ⟨trivial, ?_, by omega⟩
    congr 1; omega

/-- The 32 bits of a frame clocked in, most significant first, are the frame (R5). -/
theorem Reception.clock_frame (f : BitVec 32) :
    ((List.range 32).map f.getMsbD).foldl Reception.clock ⟨true, 0, 0⟩ = ⟨true, f, 32⟩ := by
  simpa using Reception.clock_bits f 32 (le_refl _)

/-- Even parity is an even number of ones (R6). -/
theorem evenOnes_iff {n : Nat} (w : BitVec n) :
    evenOnes w = true ↔ ((List.range n).filter (fun i => w.getLsbD i)).length % 2 = 0 := by
  unfold evenOnes
  have : ∀ (l : List Nat) (b : Bool), l.foldl (fun odd i => xor odd (w.getLsbD i)) b =
      (xor b (decide ((l.filter (fun i => w.getLsbD i)).length % 2 = 1))) := by
    intro l
    induction l with
    | nil => simp
    | cons a l ih => 
      intro b; simp [ih]
      rcases h : w.getLsbD a <;> simp [h]
      rcases Nat.mod_two_eq_zero_or_one ((l.filter (fun i => w.getLsbD i)).length) with h2 | h2 <;> simp [h2, Nat.add_mod]
  rw [this]
  rcases Nat.mod_two_eq_zero_or_one ((List.range n).filter (fun i => w.getLsbD i)).length with h | h <;> simp [h]

/-! ## Samples and stamps (R11, R14) -/

/-- A limited value lies in −2048 to +2047, and a value in that range is left alone. -/
theorem limit12_bounds (x : Int) : -2048 ≤ limit12 x ∧ limit12 x ≤ 2047 := by
  unfold limit12; omega

theorem limit12_of_inside {x : Int} (h : -2048 ≤ x) (h' : x ≤ 2047) : limit12 x = x := by
  unfold limit12; omega

/-- The gap is the count of missing numbers, 0 to 15, and 0 with no baseline. -/
theorem SampleIntake.gapOf_toNat (b : Option (BitVec 4)) (n : BitVec 4) :
    (SampleIntake.gapOf b n).toNat = match b with
      | none => 0
      | some x => (n.toNat + 31 - x.toNat) % 16 := by
  cases b with
  | none => rfl
  | some x => simp only [SampleIntake.gapOf, BitVec.toNat_sub]; have := x.isLt; simp; omega

end Sys2Proof.Machine
end

