-- ==== Sys2Proof/Laws/SessionUnit.lean ====
section
/-! SUPPORT. The Session Unit's operations, said once: the gate, the timer a request restarts, the records a session takes
as it opens and as its teardown begins, and the set of blocks whose done report is awaited. -/

namespace Sys2Proof.Machine

/-- An OPEN session admits every request (R147). -/
theorem Session.gate_opened {r : Session} (h : r.state = .opened) (b : ReqBody) : r.gate b = none := by
  unfold Session.gate; rw [h]

/-- HOST_STATUS and NOP are admitted in every state (R147). -/
theorem Session.gate_hostStatus (r : Session) : r.gate .hostStatus = none := by
  unfold Session.gate; cases r.state <;> rfl

theorem Session.gate_nop (r : Session) : r.gate .nop = none := by
  unfold Session.gate; cases r.state <;> rfl

/-- Where the gate refuses, the session is not OPEN, and the refusal says in which state it is (R147). -/
theorem Session.gate_eq_some {r : Session} {b : ReqBody} {st : Status} (h : r.gate b = some st) :
    (r.state = .closed ∧ st = .notJoined) ∨ (r.state = .closing ∧ st = .closing) := by
  have closed : ∀ x, (r.state = .closed → r.gate b = some x → x = .notJoined) ∧
      (r.state = .closing → r.gate b = some x → x = .closing) := by
    intro x
    constructor <;> (intro hs hg; unfold Session.gate at hg; rw [hs] at hg; cases b <;> cases hg <;> rfl)
  cases hs : r.state with
  | opened => rw [Session.gate_opened hs] at h; cases h
  | closed => exact .inl ⟨rfl, (closed st).1 hs h⟩
  | closing => exact .inr ⟨rfl, (closed st).2 hs h⟩

/-- An epoch given to a session is never 0 (R146). -/
theorem Session.nextEpoch_ne_zero (e : BitVec 8) : Session.nextEpoch e ≠ 0 := by
  revert e; decide

namespace SessionUnit

/-- A request taken from an OPEN session restarts its timer (R149). -/
theorem hear_opened {u : SessionUnit} {p : Port} (now : Nat) (h : (u.sessions.get p).state = .opened) :
    u.hear now p = u.setSession p { u.sessions.get p with timer := Session.timerFrom now (u.sessions.get p).timeout } := by
  have taken : (u.sessions.get p).heard now =
      { u.sessions.get p with timer := Session.timerFrom now (u.sessions.get p).timeout } := by
    generalize u.sessions.get p = r at h
    unfold Session.heard; split
    · rfl
    · simp_all
    · simp_all
  unfold hear; rw [taken]

/-- A request taken in another state restarts nothing (R149). -/
theorem hear_unopened {u : SessionUnit} {p : Port} (now : Nat) (h : (u.sessions.get p).state ≠ .opened) :
    u.hear now p = u := by
  have same : (u.sessions.get p).heard now = u.sessions.get p := by
    unfold Session.heard; cases hs : (u.sessions.get p).state <;> simp_all
  unfold hear setSession; rw [same, PerPort.set_get]

/-- A session opens: its record, its epoch and its response to the port, and the open messages (R151). -/
theorem openSession_eq (u : SessionUnit) (now : Nat) (p : Port) (timeout : Word) (subs : Subscriptions) (tag : Byte) :
    let r := (u.sessions.get p).joined now timeout
    u.openSession now p timeout subs tag = { u with
      sessions := u.sessions.set p r
      toNu := u.toNu ++ [.openPort p subs], toSi := u.toSi ++ [.openPort p]
      toHp := u.toHp.set p (u.toHp.get p ++ [.epoch r.epoch, .response ⟨.ok, tag, [r.epoch, p.byte]⟩]) } := by
  simp only [openSession, answer, setSession, PerPort.push, PerPort.set_set]
  congr 2
  cases p <;> simp [PerPort.get, PerPort.set]

end SessionUnit

/-! ## Done reports awaited (R157) -/

/-- A block taken out of the awaited set is no longer in it, and every other stays as it was. -/
theorem AwaitedDone.has_without (a : AwaitedDone) (b c : Block) :
    (a.without b).has c = (a.has c && decide (c ≠ b)) := by
  cases b <;> cases c <;> simp [AwaitedDone.without, AwaitedDone.has]

/-- Nothing is awaited exactly when no block is. -/
theorem AwaitedDone.eq_none_iff (a : AwaitedDone) : a = AwaitedDone.none ↔ ∀ b, a.has b = false := by
  obtain ⟨tt, nu, si, cu, lu⟩ := a
  constructor
  · intro h; rw [h]; intro b; cases b <;> rfl
  · intro h
    have e1 := h .tt; have e2 := h .nu; have e3 := h .si; have e4 := h .cu; have e5 := h .lu
    simp only [AwaitedDone.has] at e1 e2 e3 e4 e5
    subst e1 e2 e3 e4 e5; rfl

end Sys2Proof.Machine
end

