-- ==== Sys2Proof/Laws/TrackingLoop.lean ====
section
/-! SUPPORT. What the operations of the Tracking Loop can do, said once for each: the signs, the velocity check, a
transition, a step report, a window, and the step that joins them. -/

namespace Sys2Proof.Machine

/-! ## Signs and tables -/

theorem signOf_toInt (x : Int) : (signOf x).toInt = x.sign := by
  unfold signOf
  split
  · rename_i h; simp [Sign.toInt, Int.sign_eq_one_of_pos h]
  · split
    · rename_i h; simp [Sign.toInt, Int.sign_eq_neg_one_of_neg h]
    · have : x = 0 := by omega
      simp [this, Sign.toInt]

theorem signOf_eq_pos (x : Int) : signOf x = .pos ↔ 0 < x := by
  unfold signOf; split <;> [skip; split] <;> simp <;> omega

theorem signOf_eq_neg (x : Int) : signOf x = .neg ↔ x < 0 := by
  unfold signOf; split <;> [skip; split] <;> simp <;> omega

theorem gainKp_eq (e : GainStep) : gainKp e = 131072 / 2 ^ e.val := by revert e; decide

theorem gainKi_eq (e : GainStep) : gainKi e = 16384 / 4 ^ e.val := by revert e; decide

namespace TrackingLoop

/-! ## One operation at a time -/

/-- The velocity check in one form for both of its outcomes (R34). -/
theorem checkVelocity_eq (b : Bank) (stamp : Word) (v : Int) (t : TrackingLoop) :
    t.checkVelocity b stamp v = { t with
      loop := { t.loop with
        velocity := max (-((b.vmax : Int) * 256)) (min ((b.vmax : Int) * 256) v)
        clamp := decide (b.vmax * 256 < v.natAbs)
        overspeed := if b.vmax * 256 < v.natAbs then satAdd16 t.loop.overspeed 1 else t.loop.overspeed }
      toNu := t.toNu ++ if b.vmax * 256 < v.natAbs ∧ t.loop.clamp = false then
        [.overspeed (max (-((b.vmax : Int) * 256)) (min ((b.vmax : Int) * 256) v)) stamp] else [] } := by
  unfold checkVelocity
  by_cases h : b.vmax * 256 < v.natAbs
  · have h' : (b.vmax : Int) * 256 < v.natAbs := by omega
    have hc : max (-((b.vmax : Int) * 256)) (min ((b.vmax : Int) * 256) v) =
        if v < 0 then -((b.vmax : Int) * 256) else (b.vmax : Int) * 256 := by split <;> omega
    simp only [h', if_true, h, decide_true, true_and, hc]
    cases t.loop.clamp <;> simp
  · have h' : ¬ (b.vmax : Int) * 256 < v.natAbs := by omega
    have hc : max (-((b.vmax : Int) * 256)) (min ((b.vmax : Int) * 256) v) = v := by omega
    simp only [h', if_false, h, decide_false, hc]
    simp

/-- What a step report changes (R38, R39). -/
theorem report_eq (st : StepState) (old : BitVec 24) (d : Int) (stamp : Word) (t : TrackingLoop) :
    t.report st old d stamp = { t with
      loop := { t.loop with ambiguous := (t.report st old d stamp).loop.ambiguous }
      toTt := t.toTt ++ [⟨angleOf old, angleOf t.loop.acc, signOf d, st, stamp, isAmbiguous d⟩] } := rfl

/-- A transition keeps the angle, the records and the counters of the loop, and its paths to TT and the host ports (R46). -/
theorem transition_keeps (b : Bank) (new : LoopState) (c : LoopCause) (stamp : Word) (t : TrackingLoop) :
    (t.transition b new c stamp).loop.state = new ∧ (t.transition b new c stamp).loop.acc = t.loop.acc ∧
      (t.transition b new c stamp).loop.clamp = t.loop.clamp ∧
      (t.transition b new c stamp).loop.usable = t.loop.usable ∧
      (t.transition b new c stamp).loop.stamp = t.loop.stamp ∧
      (t.transition b new c stamp).loop.ambiguous = t.loop.ambiguous ∧
      (t.transition b new c stamp).loop.overspeed = t.loop.overspeed ∧
      (t.transition b new c stamp).toTt = t.toTt ∧ (t.transition b new c stamp).toHp = t.toHp := by
  cases new <;> simp [transition, enter]

/-- Counting a step into its window keeps everything but the window, the lock run, the stored step, the state and the
paths to NU and CU (R57, R58). -/
theorem window_keeps (b : Bank) (m : LoopState) (s : Sign) (stamp : Word) (t : TrackingLoop)
    (hm : m = .track ∨ m = .acquire) :
    (t.window b m s stamp).loop.acc = t.loop.acc ∧ (t.window b m s stamp).loop.velocity = t.loop.velocity ∧
      (t.window b m s stamp).loop.clamp = t.loop.clamp ∧ (t.window b m s stamp).loop.overspeed = t.loop.overspeed ∧
      (t.window b m s stamp).loop.usable = t.loop.usable ∧ (t.window b m s stamp).loop.stamp = t.loop.stamp ∧
      (t.window b m s stamp).loop.coastCount = t.loop.coastCount ∧
      (t.window b m s stamp).loop.ambiguous = t.loop.ambiguous ∧
      (t.window b m s stamp).toHp = t.toHp ∧ (t.window b m s stamp).toTt = t.toTt := by
  unfold window judgeWindow
  rcases hm with rfl | rfl <;> (dsimp only; repeat' split) <;> simp [countStep, transition, enter]

end TrackingLoop

end Sys2Proof.Machine
end

