-- ==== Sys2Proof/Laws/TriggerTable.lean ====
section
/-! SUPPORT. The Trigger Table's operations, said once: the argument bytes that are in range, the FREE entry taken, the
booking identified, the messages told, and the arguments of BOOK and AMEND. -/

namespace Sys2Proof.Machine

/-! ## Argument bytes (section 11.6) -/

theorem indexOf_of_eq {index : Byte} {i : EntryIndex} (h : i.val = index.toNat) : indexOf index = some i := by
  unfold indexOf; rw [dif_pos (by have := i.isLt; omega)]; congr 1; exact Fin.ext h.symm

theorem indexOf_eq_none {index : Byte} (h : 64 ≤ index.toNat) : indexOf index = none := by
  unfold indexOf; rw [dif_neg (by omega)]

theorem directionOf_eq_none (d : Byte) : directionOf d = none ↔ 3 ≤ d.toNat := by
  unfold directionOf; split <;> (simp_all; try omega)

theorem lineOf_eq_none (d : Byte) : lineOf d = none ↔ 4 ≤ d.toNat := by
  unfold lineOf; split <;> (simp_all; try omega)

theorem confidenceOf_eq_none (d : Byte) : confidenceOf d = none ↔ 2 ≤ d.toNat := by
  unfold confidenceOf; split <;> (simp_all; try omega)

theorem polarityOf_eq_none (d : Byte) : polarityOf d = none ↔ 2 ≤ d.toNat := by
  unfold polarityOf; split <;> (simp_all; try omega)

theorem remainingOf_eq_none (w : Word) : remainingOf w = none ↔ w ≠ 0xFFFF ∧ ¬ (1 ≤ w.toNat ∧ w.toNat ≤ 255) := by
  unfold remainingOf
  by_cases h : w = 0xFFFF
  · simp [h]
  · rw [if_neg h]; split <;> simp_all

@[simp] theorem directionOf_byte (d : Direction) : directionOf d.byte = some d := by cases d <;> rfl

@[simp] theorem lineOf_byte (l : Line) : lineOf l.byte = some l := by cases l <;> rfl

@[simp] theorem polarityOf_byte (p : Polarity) : polarityOf p.byte = some p := by cases p <;> rfl

@[simp] theorem confidenceOf_byte (c : Confidence) : confidenceOf c.byte = some c := by cases c <;> rfl

theorem remainingOf_word {r : Remaining} (h : r ≠ .finite 0) : remainingOf r.word = some r := by
  cases r with
  | unlimited => rfl
  | finite n =>
    have pos : n.toNat ≠ 0 := fun e => h (by rw [show n = 0 from BitVec.eq_of_toNat_eq e])
    have small := n.isLt
    have value : (Remaining.finite n).word.toNat = n.toNat := by
      simp only [Remaining.word, BitVec.toNat_setWidth]; omega
    unfold remainingOf
    rw [if_neg (fun e => by rw [e] at value; simp at value; omega), if_pos (by omega)]
    congr 2
    apply BitVec.eq_of_toNat_eq
    rw [BitVec.toNat_setWidth, value]; omega

/-- An action read from its byte and its line: the line counts for a pulsing action only (R75). -/
theorem actionOf_byte (a : Action) (line : Byte) (h : ∀ l, a.line? = some l → line = l.byte) :
    actionOf a.byte line = .ok a := by
  cases a with
  | notice => rfl
  | pulse l => rw [h l rfl]; cases l <;> rfl
  | noticeAndPulse l => rw [h l rfl]; cases l <;> rfl

/-- A mode read from its byte, its re-arm distance and its remaining: they count for REARM only (R75). -/
theorem modeOf_byte (m : Mode) (distance remaining : Word)
    (h : ∀ x y, m = .rearm x y → distance = x ∧ remaining = y.word ∧ 1 ≤ x.toNat ∧ x.toNat ≤ 16384 ∧ y ≠ .finite 0) :
    modeOf m.byte distance remaining = .ok m := by
  cases m with
  | once => rfl
  | rearm x y =>
    obtain ⟨rfl, rfl, low, high, some'⟩ := h x y rfl
    simp [modeOf, Mode.byte, low, high, remainingOf_word some']

/-- The argument check of BOOK passes on arguments that are each in range (R75). -/
theorem bookArgs_ok (angle : Word) (d : Direction) (a : Action) (line : Byte) (m : Mode) (distance remaining : Word)
    (c : Confidence) (tag : Word) (hl : ∀ l, a.line? = some l → line = l.byte)
    (hm : ∀ x y, m = .rearm x y → distance = x ∧ remaining = y.word ∧ 1 ≤ x.toNat ∧ x.toNat ≤ 16384 ∧ y ≠ .finite 0) :
    bookArgs angle d.byte a.byte line m.byte distance remaining c.byte tag = .ok ⟨angle, d, a, m, c, tag⟩ := by
  unfold bookArgs
  rw [directionOf_byte]
  simp only [actionOf_byte a line hl, modeOf_byte m distance remaining hm, confidenceOf_byte]

/-- The first check of AMEND passes when the change set is in range and so is each named value (R80). -/
theorem amendArgs_ok {changes direction : Byte} (angle tag : Word) {remaining : Word} (hc : changes.toNat < 16)
    (hd : changes.getLsbD 1 = true → directionOf direction ≠ none)
    (hr : changes.getLsbD 3 = true → remainingOf remaining ≠ none) :
    amendArgs changes angle direction tag remaining = .ok {
      angle := if changes.getLsbD 0 then some angle else none
      direction := if changes.getLsbD 1 then directionOf direction else none
      tag := if changes.getLsbD 2 then some tag else none
      remaining := if changes.getLsbD 3 then remainingOf remaining else none } := by
  unfold amendArgs
  rw [if_neg (by omega), if_neg, if_neg]
  · intro h; simp only [Bool.and_eq_true, Option.isNone_iff_eq_none] at h; exact hr h.1 h.2
  · intro h; simp only [Bool.and_eq_true, Option.isNone_iff_eq_none] at h; exact hd h.1 h.2

namespace TriggerTable

/-! ## The table -/

theorem tellLu_eq (t : TriggerTable) (a : Action) (m : Line → TtLuMsg) :
    t.tellLu a m = { t with toLu := t.toLu ++ (a.line?.map m).toList } := by
  unfold tellLu; cases a.line? <;> simp

theorem tellNu_eq (t : TriggerTable) (a : Action) (m : TtNuMsg) :
    t.tellNu a m = { t with toNu := t.toNu ++ if a.notifies then [m] else [] } := by
  unfold tellNu; split <;> simp

/-- The entries a port holds, counted by index (R77). -/
theorem count_eq (t : TriggerTable) (p : Port) :
    t.count p = (List.finRange 64).countP (fun i => heldBy p t.entries[i]) := by
  have h : t.entries.toList = (List.finRange 64).map (fun i => t.entries[i]) := by apply List.ext_getElem <;> simp
  rw [count, h, List.countP_map]; rfl

theorem lowestFree_eq_none {t : TriggerTable} (h : ∀ i : EntryIndex, t.entries[i] ≠ none) : t.lowestFree = none := by
  unfold lowestFree; rw [List.find?_eq_none]; intro i _; simpa [Option.isNone_iff_eq_none] using h i

/-- The entry taken is FREE and every entry below it is not (R78). -/
theorem lowestFree_eq_some {t : TriggerTable} {i : EntryIndex} (h : t.entries[i] = none)
    (below : ∀ j : EntryIndex, j < i → t.entries[j] ≠ none) : t.lowestFree = some i := by
  unfold lowestFree
  rw [List.find?_eq_some_iff_getElem]
  refine ⟨by simpa using h, i.val, by simp, by simp, ?_⟩
  intro j hj
  have := below ⟨j, by omega⟩ (by simpa [Fin.lt_def] using hj)
  simpa [Option.isSome_iff_ne_none] using this

/-! ## The booking a request names (R74) -/

theorem identify_ok {t : TriggerTable} {p : Port} {index : Byte} {serial : Word} {i : EntryIndex} {b : Booking}
    (hi : i.val = index.toNat) (hb : t.entries[i] = some b) (hs : b.serial = serial) (ho : b.owner = p) :
    t.identify p index serial = .ok (i, b) := by
  simp only [identify, indexOf_of_eq hi, hb]; simp [hs, ho]

/-- What a request that was identified found. -/
theorem identify_eq_ok {t : TriggerTable} {p : Port} {index : Byte} {serial : Word} {i : EntryIndex} {b : Booking}
    (h : t.identify p index serial = .ok (i, b)) :
    i.val = index.toNat ∧ t.entries[i] = some b ∧ b.serial = serial ∧ b.owner = p := by
  unfold identify at h
  split at h
  · cases h
  · rename_i j hj
    have index_val : j.val = index.toNat := by
      unfold indexOf at hj; split at hj
      · cases hj; rfl
      · cases hj
    split at h
    · cases h
    · rename_i c hc
      split at h
      · cases h
      · rename_i hs
        split at h
        · cases h
        · rename_i ho
          cases h
          exact ⟨index_val, hc, not_not.mp hs, not_not.mp ho⟩

/-! ## Firing (R95, R101) -/

/-- A candidate put in its place keeps the list's members. -/
theorem mem_insertInOrder (c x : Candidate) (l : List Candidate) : x ∈ insertInOrder c l ↔ x = c ∨ x ∈ l := by
  induction l with
  | nil => simp [insertInOrder]
  | cons d ds ih =>
    unfold insertInOrder
    split
    · simp
    · simp only [List.mem_cons, ih]; tauto

/-- A candidate put in its place keeps the list in the order of distance. -/
theorem insertInOrder_sorted (c : Candidate) {l : List Candidate} (h : l.Pairwise (fun a b => a.distance ≤ b.distance)) :
    (insertInOrder c l).Pairwise (fun a b => a.distance ≤ b.distance) := by
  induction l with
  | nil => simp [insertInOrder]
  | cons d ds ih =>
    rw [List.pairwise_cons] at h
    unfold insertInOrder
    split
    · rename_i near
      refine List.pairwise_cons.mpr ⟨fun x hx => ?_, List.pairwise_cons.mpr h⟩
      rcases List.mem_cons.mp hx with rfl | hx
      · exact le_of_lt near
      · exact le_trans (le_of_lt near) (h.1 x hx)
    · rename_i far
      refine List.pairwise_cons.mpr ⟨fun x hx => ?_, ih h.2⟩
      rcases (mem_insertInOrder c x ds).mp hx with rfl | hx
      · exact not_lt.mp far
      · exact h.1 x hx

end TriggerTable

end Sys2Proof.Machine
end

