-- ==== Sys2Proof/Tests/Slice0.lean ====
section
/-! SUPPORT. Small tests, most of them with the manual's worked numbers, and for each statement with hypotheses a witness that
meets them, at the boundaries of its clauses. -/

namespace Sys2Proof.Tests

open Sys2Proof Sys2Proof.Machine Sys2Proof.Claims

/-! ## Small states -/

/-- The next state of a command, or the state itself where there is none. -/
def after (c : Instr) (s : State) : State :=
  match exec c s with
  | .next t => t
  | .fault _ => s
  | .refused _ => s

/-- The reset state with one message list of a block replaced. -/
def suSi (q : List SuSiMsg) : State := { State.reset with su := { State.reset.su with toSi := q } }
def suTl (q : List Request) : State := { State.reset with su := { State.reset.su with toTl := q } }
def suTt (q : List SuTtMsg) : State := { State.reset with su := { State.reset.su with toTt := q } }
def suNu (q : List SuNuMsg) : State := { State.reset with su := { State.reset.su with toNu := q } }
def suLu (q : List SuLuMsg) : State := { State.reset with su := { State.reset.su with toLu := q } }
def suCu (q : List SuCuMsg) : State := { State.reset with su := { State.reset.su with toCu := q } }
def siTl (q : List SiTlMsg) : State := { State.reset with si := { State.reset.si with toTl := q } }
def cuTl (q : List Request) : State := { State.reset with cu := { State.reset.cu with toTl := q } }
def tlTt (q : List StepReport) : State := { State.reset with tl := { State.reset.tl with toTt := q } }
def ttNu (q : List TtNuMsg) : State := { State.reset with tt := { State.reset.tt with toNu := q } }
def ttLu (q : List TtLuMsg) : State := { State.reset with tt := { State.reset.tt with toLu := q } }
def hpSu (q : List Request) : State := State.reset.setHp .p2 { HostPort.reset with toSu := q }

/-- A state with the loop, an entry, a port record of NU, a line, a session or the lease as given. -/
def withLoop (s : State) (l : LoopRecord) : State := { s with tl := { s.tl with loop := l } }
def withEntry (s : State) (i : EntryIndex) (e : Entry) : State := { s with tt := s.tt.setEntry i e }
def withPort (s : State) (r : NoticePort) : State := { s with nu := { s.nu with ports := s.nu.ports.set .p2 r } }
def withLine (s : State) (r : LineRecord) : State := { s with lu := s.lu.setLine .trg1 r }
def inSession (s : State) (r : Session) : State := { s with su := s.su.setSession .p2 r }
def withLease (s : State) (h : Option Port) (w : List Port) : State :=
  { s with cu := { s.cu with holder := h, waiting := w } }

/-- An open session of P2 with a timeout of 200 ms. -/
def open2 : Session := { Session.reset with state := .opened, epoch := 1, timeout := 200, timer := some 200001 }

/-- A session of P2 in teardown, all done reports awaited. -/
def closing2 : Session :=
  { Session.reset with state := .closing, epoch := 1, timeout := 200, awaited := ⟨true, true, true, true, true⟩ }

/-- A frame open on the sample link. -/
def framing (baseline : Option (BitVec 4)) : State :=
  { State.reset with si := { State.reset.si with reception := ⟨true, 0, 0⟩, baseline := baseline } }

/-- A good frame: number 1, sine 1264 (4F0h), cosine 808 (328h), parity bits set to match. -/
def goodFrame : BitVec 32 := 0x14F03280

/-- The bookings of section 5.7. -/
def entry3 : Booking :=
  ⟨.armed, .p0, 210, 0, 65100, .fwd, .notice, .rearm 1000 .unlimited, .trackOrCoast, 7, some ⟨65100, 4000⟩⟩
def entry4 : Booking := ⟨.armed, .p0, 205, 0, 100, .fwd, .notice, .once, .trackOrCoast, 0, none⟩
def entry9 : Booking :=
  ⟨.armed, .p1, 212, 0, 100, .both, .noticeAndPulse .trg1, .rearm 3000 (.finite 5), .trackOrCoast, 0, none⟩
def entry17 : Booking := ⟨.armed, .p1, 214, 0, 800, .fwd, .pulse .trg1, .once, .trackOnly, 0, none⟩

/-- The step report of section 5.7. -/
def sweep : StepReport := ⟨65000, 1200, .pos, .coast, 4400, false⟩

/-! ## Well-formed commands -/

theorem test_doneReport_from_su_is_ill_formed : (Instr.doneReport .su).wellFormed = false := by decide
theorem test_doneReport_from_tl_is_ill_formed : (Instr.doneReport .tl).wellFormed = false := by decide
theorem test_doneReport_from_lu_is_well_formed : (Instr.doneReport .lu).wellFormed = true := by decide
theorem test_reset_is_well_formed : Instr.reset.wellFormed = true := by decide

/-! ## Decoding: no row of the table has bits -/

theorem test_no_word_spells_a_command : decodeTableWord 0 0 = none ∧ decodeTableWord 32 0xFFFFFFFF = none := by decide

/-! ## Worked numbers of the manual -/

/-- R36: entry 0 is 0, entry 512 is 1447, entry 1024 is +2047 and entry 3072 is −2047. -/
theorem test_sine_entries :
    sineEntry 0 = 0 ∧ sineEntry 512 = 1447 ∧ sineEntry 1024 = 2047 ∧ sineEntry 3072 = -2047 := by decide

/-- Section 2.4: a step across a gap of three. -/
theorem test_step_across_a_gap :
    let l := { LoopRecord.reset with state := .track, acc := 2560000, velocity := 25600, stored := 3, usable := true }
    let t := after .frameMessage (withLoop (siTl [.frame 3 1264 808 true 816]) l)
    t.tl.loop.acc = 2678784 ∧ t.tl.loop.velocity = 25856 ∧
      t.tl.toTt = [⟨10000, 10464, .pos, .track, 816, false⟩] := by decide

/-- Section 5.7: the coasting step that makes the report. -/
theorem test_coast_step_across_the_wrap :
    let l := { LoopRecord.reset with state := .coast, acc := 16640000, velocity := 111104 }
    (after .frameMessage (withLoop (siTl [.frame 3 0 0 false 4400]) l)).tl.toTt = [sweep] := by decide

/-- Section 5.7: entry 3 fires and is re-armed; entry 4 becomes SPENT; entry 17 does not admit COAST. -/
theorem test_sweep_entry3 : rearmedAt 1200 (afterFiring sweep entry3) =
    { entry3 with firedTotal := 8, lastFire := some ⟨65100, 4400⟩ } := by decide
theorem test_sweep_entry4 : (entry4.afterFiring 4400) =
    some { entry4 with state := .spent, firedTotal := 1, lastFire := some ⟨100, 4400⟩ } := by decide
theorem test_sweep_firing : (entry3.firesOn sweep, entry4.firesOn sweep, entry9.firesOn sweep, entry17.firesOn sweep) =
    (true, true, true, false) := by decide
theorem test_sweep_distances : (sweep.pathDistance 65100, sweep.pathDistance 100, sweep.pathLength) =
    (100, 636, 1736) := by decide

/-- Section 6.10, event 2: the FIRED notice with sequence number 45 is posted, no release. -/
theorem test_fire_report_posts :
    let r : NoticePort := { NoticePort.reset with opened := true, seq := 45 }
    let t := after .fireReport (withPort (ttNu [.fire ⟨.p2, 12, 301, 0, 0, .fwd, 5000, .track, false⟩]) r)
    (t.nu.ports.get .p2).queue.map QueuedNotice.seq = [45] ∧ (t.nu.ports.get .p2).seq = 46 ∧
      (t.nu.ports.get .p2).atnLow = true ∧ t.nu.toTt = [] := by decide

/-- Section 7.7, events 1 and 4: TRG1 is claimed ACTIVE_LOW with 20 µs, and struck at 1000. -/
theorem test_line_claimed :
    let t := after .lineClaim (suLu [.request ⟨.p1, 0, .lineClaim 1 1 20⟩])
    (t.lu.lines.get .trg1).pin = .high ∧ t.lu.toTt = [⟨.trg1, some .p1⟩] := by decide
theorem test_line_struck :
    let r : LineRecord := ⟨.idle .p1, .activeLow, 20, 0, PerPort.all 0, .high⟩
    let t := after .pulseRequest { withLine (ttLu [.pulse .trg1 .p1]) r with now := 1000 }
    (t.lu.lines.get .trg1).pin = .low ∧ (t.lu.lines.get .trg1).state = .pulsing .p1 1020 := by decide

/-- Section 10.10, steps 1 and 2: the EMPTY marker of section 11.2, and the JOIN frame with tag 5Ah, a timeout of 200 ms
and subscriptions {LOOP}, written out from section 11.3. -/
theorem test_empty_marker :
    ((after (.csFalls .p2) State.reset).hp.get .p2).transaction =
      some ⟨.idle, [0x10, 0, 0, 0, 0, 0xF0], 0, [], 0⟩ := by decide
theorem test_join_frame : (ReqBody.join 200 1).frame 0x5A = [0x01, 0x5A, 0x00, 0xC8, 0x01, 0xDC] := by decide

/-- Section 10.4: bytes that sum to 1A7h take the check byte 59h. -/
theorem test_check_byte : withCheck [0xFF, 0xA8] = [0xFF, 0xA8, 0x59] := by decide

/-- R196: FF80h is offS −128, and 8000h is out of range for every field. -/
theorem test_param_range : FieldId.offS.inRange (0xFF80 : Word).toInt = true ∧
    FieldId.offS.inRange (0x8000 : Word).toInt = false := by decide

/-- R14 rounds the corrected cosine toward zero. -/
theorem test_cosine_rounds_toward_zero :
    correctCosine { Bank.default with gainC := 1023 } (-1) = 0 := by decide

/-- R170: the defaults pass the cross-field checks, and a Td of 70 with a Tu of 64 fails the second (R171, R174). -/
theorem test_cross_checks : Bank.default.crossFailure = none ∧
    { Bank.default with td := 70 }.crossFailure = some .td := by decide

/-! ## Witnesses: the whole machine -/

theorem witness_StepRunsFrontCommand : { State.reset with pending := [.reset] }.pending = .reset :: [] := by decide

theorem witness_ResetIgnoresInputs :
    { State.reset with phase := .starting 50 }.phase ≠ .running ∧ Instr.sfrmRises ≠ .reset ∧
      Instr.sfrmRises ≠ .resetFoundHigh ∧ Instr.sfrmRises ≠ .resetEnd := by decide

theorem witness_ResetRunsToItsEnd : State.reset.phase ≠ .low ∧ (∀ e, State.reset.phase ≠ .starting e) :=
  ⟨by decide, fun _ h => ResetPhase.noConfusion h⟩

/-- After reset only the stale timer runs, toward tick 501: the timebase may stand anywhere up to it. -/
theorem witness_TimersExpireAtTheirTick_stale :
    State.reset.phase = .running ∧ State.reset.pending = [] ∧ State.reset.now ≤ 501 ∧ NoTimerBefore State.reset 501 ∧
      ¬ NoTimerBefore State.reset 502 ∧ State.reset.si.staleTimer = some 501 ∧
      ExpiryAt State.reset .staleTimerExpiry 501 :=
  ⟨rfl, rfl, by decide, ⟨fun u h => by cases h; decide, fun p u h => (by cases p <;> cases h),
      fun l p e h => (by cases l <;> cases h)⟩, fun h => absurd (h.1 501 rfl) (by decide), rfl, .inl ⟨rfl, rfl⟩⟩

/-- No stale timer, P2's session timer toward tick t, and a pulse of TRG1 that ends at 1020. -/
def timed (t : Nat) : State :=
  withLine (inSession { State.reset with si := { State.reset.si with staleTimer := none } } { open2 with timer := some t })
    ⟨.pulsing .p1 1020, .activeLow, 20, 0, PerPort.all 0, .low⟩

theorem witness_NoTimerBefore (t : Nat) (h : 1021 ≤ t) : NoTimerBefore (timed t) 1021 :=
  ⟨fun u h => (nomatch h), fun p u _ h' => by cases p <;> cases h'; exact h,
    fun l p e h => by cases l <;> cases h; decide⟩

/-- At tick 1021 both timers come at once; with the session timer at 1022 the pulse's comes first, and the session timer's
expiry is not offered. -/
theorem witness_TimersExpireAtTheirTick_others :
    (timed 1021).phase = .running ∧ (timed 1021).pending = [] ∧ SessionTimerAt (timed 1021) .p2 1021 ∧
      PulseTimerAt (timed 1021) .trg1 1021 ∧ (timed 1021).si.staleTimer ≠ some 1021 ∧
      SessionTimerAt (timed 1022) .p2 1022 ∧ ¬ NoTimerBefore (timed 1022) 1022 ∧
      ExpiryAt (timed 1022) (.sessionTimerExpiry .p2) 1022 ∧ ExpiryAt (timed 1022) (.pulseEnd .trg1) 1021 :=
  ⟨rfl, rfl, ⟨rfl, rfl⟩, ⟨.p1, 1020, rfl, rfl⟩, by decide, ⟨rfl, rfl⟩,
    fun h => absurd (h.2.2 .trg1 .p1 1020 rfl) (by decide), .inr (.inl ⟨.p2, rfl, rfl, rfl⟩),
    .inr (.inr ⟨.trg1, rfl, .p1, 1020, rfl, rfl⟩)⟩

/-- A pulse whose tick has been reached, and one whose tick comes next, are each the next expiry. -/
theorem witness_Comes : Comes { timed 1021 with now := 1021 } 1021 ∧ Comes (timed 1021) 1021 :=
  ⟨.inl (by decide), .inr (witness_NoTimerBefore 1021 (by decide))⟩

/-! ## Witnesses: Sample Intake -/

theorem witness_FramesOpenedRejectedAndDuplicated :
    (framing none).phase = .running ∧ State.reset.si.reception.inFrame = false ∧
      FrameOpen (framing none) ∧ (List.replicate 31 true).length ≠ 32 ∧ (List.replicate 33 true).length ≠ 32 ∧
      ¬ ParityGood (goodFrame ^^^ 1) ∧ ¬ ParityGood (goodFrame ^^^ 2) ∧ ParityGood goodFrame ∧
      (framing (some 1)).si.baseline = some (goodFrame.extractLsb' 28 4) ∧ FrameOpen (framing (some 1)) := by
  unfold FrameOpen ParityGood; decide

theorem witness_AcceptedFrame :
    FrameOpen (framing none) ∧ ParityGood goodFrame ∧ (framing none).si.baseline ≠ some (goodFrame.extractLsb' 28 4) ∧
      FrameOpen (framing (some 2)) ∧ (framing (some 2)).si.baseline ≠ some (goodFrame.extractLsb' 28 4) ∧
      goodFrame.getLsbD 2 = false ∧ ParityGood 0x05 ∧ (0x05 : BitVec 32).getLsbD 2 = true := by
  unfold FrameOpen ParityGood; decide

theorem witness_StaleTimerExpiry :
    { State.reset with now := 501 }.si.staleTimer = some 501 ∧ State.reset.si.active.stale = true ∧
      { State.reset.si with active := CauseSet.empty }.active.stale = false := by decide

theorem witness_SessionAndHealthRequestsAtIntake :
    (suSi [.openPort .p0]).su.toSi = .openPort .p0 :: [] ∧ (suSi [.closePort .p0]).su.toSi = .closePort .p0 :: [] ∧
      (suSi [.request ⟨.p0, 7, .readHealth⟩]).su.toSi = .request ⟨.p0, 7, .readHealth⟩ :: [] ∧
      (suSi [.request ⟨.p0, 7, .ackHealth⟩]).su.toSi = .request ⟨.p0, 7, .ackHealth⟩ :: [] ∧
      ((⟨some CauseSet.empty, none, none, none⟩ : PerPort (Option CauseSet)).get .p0 = some CauseSet.empty) := by decide

theorem witness_CountersReadAndCleared :
    (suSi [.request ⟨.p0, 7, .readCounters⟩]).su.toSi = .request ⟨.p0, 7, .readCounters⟩ :: [] ∧
      { State.reset.cu with toSi := [⟨.p0, 7, .countersClear⟩] }.toSi = ⟨.p0, 7, .countersClear⟩ :: [] ∧
      (siTl [.readCounters .p0 7 1 2 3]).si.toTl = .readCounters .p0 7 1 2 3 :: [] ∧
      (siTl [.countersClear .p0 7]).si.toTl = .countersClear .p0 7 :: [] := by decide

/-! ## Witnesses: Tracking Loop -/

/-- A frame message next, in each loop state. -/
def frameIn (st : LoopState) (usable : Bool) : State :=
  withLoop (siTl [.frame 14 100 0 usable 9]) { LoopRecord.reset with state := st }

theorem witness_FrameNext (st : LoopState) (usable : Bool) :
    FrameNext (frameIn st usable) 14 100 0 usable 9 [] ∧ (frameIn st usable).tl.loop.state = st := ⟨⟨rfl, rfl⟩, rfl⟩

theorem witness_WindowsLadderAndLock :
    FrameNext (frameIn .track true) 14 100 0 true 9 [] ∧ State.reset.bank.ceiling ≤ State.reset.bank.floor ∧
      State.reset.bank.window ≤ 31 + 1 ∧ ¬ State.reset.bank.window ≤ 30 + 1 ∧
      ambiguous 8388352 = true ∧ ambiguous (-8388351) = false ∧ State.reset.bank.lw ≤ 1 + 1 ∧
      0 + 1 < State.reset.bank.lw := ⟨⟨rfl, rfl⟩, by decide⟩

theorem witness_UnusableFrame :
    FrameNext (frameIn .coast false) 14 100 0 false 9 [] ∧ State.reset.bank.coastLimit ≤ (32 : BitVec 8).toNat ∧
      (31 : BitVec 8).toNat < State.reset.bank.coastLimit := ⟨⟨rfl, rfl⟩, by decide⟩

theorem witness_UsableFrameRecovers :
    FrameNext (frameIn .lost true) 14 100 0 true 9 [] ∧ State.reset.bank.holdOnRecovery = false ∧
      { State.reset.bank with holdOnRecovery := true }.holdOnRecovery = true := ⟨⟨rfl, rfl⟩, by decide⟩

theorem witness_StaleMessage : (siTl [.stale]).phase = .running ∧ (siTl [.stale]).si.toTl = .stale :: [] := by decide

theorem witness_StartHaltAndRelock :
    (cuTl [⟨.p0, 7, .start⟩]).cu.toTl = ⟨.p0, 7, .start⟩ :: [] ∧ (cuTl [⟨.p0, 7, .halt⟩]).cu.toTl = ⟨.p0, 7, .halt⟩ :: [] ∧
      (cuTl [⟨.p0, 7, .relock⟩]).cu.toTl = ⟨.p0, 7, .relock⟩ :: [] := by decide

theorem witness_LoopReads :
    (suTl [⟨.p0, 7, .readAngle⟩]).su.toTl = ⟨.p0, 7, .readAngle⟩ :: [] ∧
      (suTl [⟨.p0, 7, .readLoop⟩]).su.toTl = ⟨.p0, 7, .readLoop⟩ :: [] := by decide

/-! ## Witnesses: Trigger Table -/

theorem witness_BookTakesTheLowestFreeEntry :
    TableRequest (suTt [.request ⟨.p0, 7, .book 65100 0 0 9 1 1 255 1 3⟩]) .p0 7
      (.book 65100 Direction.fwd.byte Action.notice.byte 9 (Mode.rearm 1 (.finite 255)).byte 1
        (Remaining.finite 255).word Confidence.trackOrCoast.byte 3) [] ∧
      (1 : Word).toNat ≤ 16384 ∧ Remaining.finite 255 ≠ .finite 0 ∧
      (0 : Nat) < State.reset.bank.quota.get .p0 ∧ State.reset.tt.entries[(0 : EntryIndex)] = none ∧
      (Action.pulse .trg1).line? = some .trg1 ∧ (1 : Byte) = Line.trg1.byte ∧
      (State.reset.tt.lineOwner.set .trg1 (some .p0)).get .trg1 = some .p0 :=
  ⟨⟨rfl, rfl⟩, by decide⟩

/-- The count of a port that holds nothing is 0, below every quota but 0. -/
theorem witness_heldCount : heldCount State.reset.tt .p0 = 0 := by decide

theorem witness_BookIsRefusedInOrder :
    bookFaults 3 0 0 0 0 0 0 = [2] ∧ bookFaults 2 3 0 0 0 0 0 = [3] ∧ bookFaults 2 2 4 0 0 0 0 = [4] ∧
      bookFaults 2 2 3 2 0 0 0 = [5] ∧ bookFaults 2 2 3 1 0 1 0 = [6] ∧ bookFaults 2 2 3 1 16385 1 0 = [6] ∧
      bookFaults 2 2 3 1 16384 256 0 = [7] ∧ bookFaults 2 2 3 1 16384 255 2 = [8] ∧
      bookFaults 2 2 3 1 1 0xFFFF 1 = [] ∧ bookFaults 0 0 9 0 0 0 0 = [] ∧
      ¬ (∀ l : Line, l.byte = 3 → State.reset.tt.lineOwner.get l = some .p0) :=
  ⟨by decide, by decide, by decide, by decide, by decide, by decide, by decide, by decide, by decide, by decide,
    fun h => by cases h .trg3 rfl⟩

theorem witness_BookingIsIdentifiedInOrder :
    TableRequest (suTt [.request ⟨.p0, 7, .cancel 63 205⟩]) .p0 7 (.cancel 63 205) [] ∧
      NamesBooking .cancel (.cancel 63 205) 63 205 ∧ NamesBooking .amend (.amend 64 205 15 0 2 0 255) 64 205 ∧
      64 ≤ (64 : Byte).toNat ∧ (63 : EntryIndex).val = (63 : Byte).toNat ∧
      (withEntry State.reset 63 (some entry4)).tt.entries[(63 : EntryIndex)] = some entry4 ∧
      entry4.serial = 205 ∧ entry4.owner = .p0 :=
  ⟨⟨rfl, rfl⟩, .inl ⟨rfl, rfl⟩,
    .inr (.inr (.inr ⟨rfl, 15, 0, 2, 0, 255, rfl, by decide, by decide, by decide⟩)), by decide⟩

theorem witness_AmendReplacesTheNamedFields :
    16 ≤ (16 : Byte).toNat ∧ (15 : Byte).toNat < 16 ∧ (2 : Byte).getLsbD 1 = true ∧ 3 ≤ (3 : Byte).toNat ∧
      (8 : Byte).getLsbD 3 = true ∧ remainingOk 0 = false ∧ remainingOk 256 = false ∧ amendOk 15 2 1 ∧
      entry4.mode = .once ∧ { entry4 with state := .spent }.state = .spent ∧ entry9.state ≠ .spent :=
  ⟨by decide, by decide, by decide, by decide, by decide, by decide, by decide, ⟨by decide, by decide, by decide⟩, by decide⟩

theorem witness_CancelSuspendAndResume :
    TableRequest (suTt [.request ⟨.p1, 7, .suspend 9 212⟩]) .p1 7 (.suspend 9 entry9.serial) [] ∧
      TableRequest (suTt [.request ⟨.p1, 7, .resume 9 212⟩]) .p1 7 (.resume 9 entry9.serial) [] ∧
      TableRequest (suTt [.request ⟨.p1, 7, .cancel 9 212⟩]) .p1 7 (.cancel 9 entry9.serial) [] ∧
      entry9.owner = .p1 ∧ entry9.state = .armed ∧ (9 : EntryIndex).val = (9 : Byte).toNat :=
  ⟨⟨rfl, rfl⟩, ⟨rfl, rfl⟩, ⟨rfl, rfl⟩, by decide⟩

theorem witness_TableReads :
    TableRequest (suTt [.request ⟨.p0, 7, .readEntry 63⟩]) .p0 7 (.readEntry 63) [] ∧
      TableRequest (suTt [.request ⟨.p0, 7, .listOwn⟩]) .p0 7 .listOwn [] := ⟨⟨rfl, rfl⟩, ⟨rfl, rfl⟩⟩

theorem witness_PurgeReleaseAndLineOwner :
    (suTt [.purge .p0]).su.toTt = .purge .p0 :: [] ∧
      { State.reset.nu with toTt := [⟨63, 205⟩] }.toTt = ⟨63, 205⟩ :: [] ∧
      { entry4 with state := .spent }.state = .spent ∧
      { State.reset.lu with toTt := [⟨.trg1, none⟩] }.toTt = ⟨.trg1, none⟩ :: [] := by decide

theorem witness_StepReports :
    (tlTt [sweep]).tl.toTt = sweep :: [] ∧ { sweep with ambiguous := true }.ambiguous = true ∧
      lastFiring entry4 = true ∧ entry4.action.notifies = true ∧ lastFiring entry17 = true ∧
      entry17.action.notifies = false ∧ lastFiring entry9 = false := by decide

/-- The first and the last angle of a path are not crossed and crossed, and a firing entry meets Fires. -/
theorem witness_Fires : Fires sweep entry3 ∧ pathDistance sweep 65000 = 0 ∧ pathDistance sweep 1200 = pathLength sweep :=
  ⟨⟨rfl, rfl, ⟨by decide, by decide, by decide⟩, .inr (.inl ⟨rfl, rfl⟩), .inr rfl⟩, by decide, by decide⟩

/-! ## Witnesses: Notice Unit -/

/-- An open port whose queue holds n notices. -/
def holding (n : Nat) : NoticePort :=
  { NoticePort.reset with opened := true, queue := (List.range n).map (fun i => ⟨BitVec.ofNat 8 i, .leaseGranted⟩) }

theorem witness_FireReportIsPostedOwedOrMerged :
    (ttNu [.fire ⟨.p2, 5, 300, 0, 0, .fwd, 5000, .track, true⟩]).tt.toNu =
        .fire ⟨.p2, 5, 300, 0, 0, .fwd, 5000, .track, true⟩ :: [] ∧
      (holding 15).queue.length < 16 ∧ 16 ≤ (holding 16).queue.length ∧
      ([⟨5, 300, 0, 1, 0, .fwd, 5002, .coast, false⟩, ⟨12, 301, 0, 2, 0, .fwd, 5003, .coast, false⟩] : List Fired).Pairwise
        (fun a b => a.index < b.index) := by decide

theorem witness_ReportsBecomeNotices :
    { State.reset.si with toNu := [⟨CauseSet.empty, CauseSet.empty, 0⟩] }.toNu = ⟨CauseSet.empty, CauseSet.empty, 0⟩ :: [] ∧
      { State.reset.tl with toNu := [.overspeed 5 9] }.toNu = .overspeed 5 9 :: [] ∧
      { State.reset.tl with toNu := [.loop .track .coast .healthLost 9 3] }.toNu =
        .loop .track .coast .healthLost 9 3 :: [] ∧
      { State.reset.cu with toNu := [.activation .bank1] }.toNu = .activation .bank1 :: [] ∧
      { State.reset.cu with toNu := [.lease (some .p2) true] }.toNu = .lease (some .p2) true :: [] := by decide

theorem witness_DropRemovesTheOwedItem :
    (ttNu [.drop .p2 5 300]).tt.toNu = .drop .p2 5 300 :: [] ∧
      ([] ++ (⟨5, 300, 0, 1, 0, .fwd, 5002, .coast, false⟩ : Fired) :: [] : List Fired).Pairwise
        (fun a b : Fired => a.index < b.index) ∧
      (holding 16).owed = [] ∧ NoticePort.reset.opened = false := by decide

theorem witness_NoticePopPostsWhatIsOwed :
    (suNu [.request ⟨.p2, 7, .noticePop⟩]).su.toNu = .request ⟨.p2, 7, .noticePop⟩ :: [] ∧
      (holding 1).queue = ⟨0, .leaseGranted⟩ :: [] ∧ (holding 0).queue = [] ∧
      { holding 16 with summaryOwed := true }.summaryOwed = true := by decide

theorem witness_PortOpenedClosedAndMarked :
    (suNu [.openPort .p2 Subscriptions.none]).su.toNu = .openPort .p2 Subscriptions.none :: [] ∧
      (suNu [.closePort .p2]).su.toNu = .closePort .p2 :: [] ∧ (ttNu [.purgeMark .p2]).tt.toNu = .purgeMark .p2 :: [] ∧
      (holding 1).opened = true ∧ (holding 1).markTaken = false ∧
      { NoticePort.reset with markAwaited := true }.markAwaited = true := by decide

/-! ## Witnesses: Line Unit -/

theorem witness_ClaimOfALine :
    LineRequest (suLu [.request ⟨.p1, 7, .lineClaim 1 1 20⟩]) .p1 7 (.lineClaim 1 1 20) [] ∧ 4 ≤ (4 : Byte).toNat ∧
      (3 : Byte).toNat < 4 ∧ 2 ≤ (2 : Byte).toNat ∧ Line.trg1.byte = 1 ∧ Polarity.activeLow.byte = 1 ∧ (1 : Byte) ≠ 0 ∧
      (State.reset.lu.lines.get .trg1).state = .unowned := ⟨⟨rfl, rfl⟩, by decide⟩

theorem witness_Owns : Owns .p1 { LineRecord.reset with state := .idle .p1 } ∧
    Owns .p1 { LineRecord.reset with state := .pulsing .p1 1020 } ∧ ¬ Owns .p1 LineRecord.reset :=
  ⟨.inl rfl, .inr ⟨1020, rfl⟩, fun h => by rcases h with h | ⟨_, h⟩ <;> cases h⟩

theorem witness_PulsesStartExtendAndEnd :
    (ttLu [.pulse .trg1 .p1]).tt.toLu = .pulse .trg1 .p1 :: [] ∧
      LineRequest (suLu [.request ⟨.p1, 7, .linePulse 1⟩]) .p1 7 (.linePulse Line.trg1.byte) [] :=
  ⟨rfl, rfl, rfl⟩

theorem witness_ReleaseAndStatusOfALine :
    NamesLine .lineClaim (.lineClaim 4 0 1) 4 ∧ NamesLine .lineRelease (.lineRelease 4) 4 ∧
      LineRequest (suLu [.request ⟨.p1, 7, .lineRelease 1⟩]) .p1 7 (.lineRelease Line.trg1.byte) [] ∧
      LineRequest (suLu [.request ⟨.p1, 7, .lineStatus 1⟩]) .p1 7 (.lineStatus Line.trg1.byte) [] :=
  ⟨.inl ⟨0, 1, rfl, rfl⟩, .inr (.inl ⟨rfl, rfl⟩), ⟨rfl, rfl⟩, ⟨rfl, rfl⟩⟩

theorem witness_ReferencesAndTheTeardownExchange :
    (ttLu [.referenceAdded .trg1 .p1]).tt.toLu = .referenceAdded .trg1 .p1 :: [] ∧
      (ttLu [.referenceRemoved .trg1 .p1]).tt.toLu = .referenceRemoved .trg1 .p1 :: [] ∧
      (ttLu [.referencesPurged .p1]).tt.toLu = .referencesPurged .p1 :: [] ∧
      (suLu [.releaseAll .p1]).su.toLu = .releaseAll .p1 :: [] ∧ State.reset.lu.marks.get .p1 = .clear := by decide

/-! ## Witnesses: Session Unit -/

theorem witness_GateRefusesByTheSessionState :
    PortRequest (hpSu [⟨.p2, 7, .ping⟩]) .p2 7 .ping [] ∧ SuTakes (.ping .p2) .p2 .ping ∧
      SuTakes (.forwardRequest .p2) .p2 .ping ∧ ReqBody.ping ≠ .hostStatus ∧ ReqBody.ping ≠ .nop ∧
      ((hpSu []).su.sessions.get .p2).state = .closed ∧
      ((inSession (hpSu []) closing2).su.sessions.get .p2).state = .closing :=
  ⟨⟨rfl, rfl⟩, .inr (.inr (.inr ⟨rfl, rfl⟩)), .inl rfl, by decide⟩

theorem witness_RequestIsForwardedToItsOwner :
    PortRequest (inSession (hpSu [⟨.p2, 7, .listOwn⟩]) open2) .p2 7 .listOwn [] ∧
      ((inSession (hpSu [⟨.p2, 7, .listOwn⟩]) open2).su.sessions.get .p2).state = .opened := ⟨⟨rfl, rfl⟩, rfl⟩

theorem witness_JoinOpensOrRejoins :
    PortRequest (hpSu [⟨.p2, 0x5A, .join 200 1⟩]) .p2 0x5A (.join 200 1) [] ∧ 1000 < (1001 : Word).toNat ∧
      (1000 : Word).toNat ≤ 1000 ∧ 16 ≤ (16 : Byte).toNat ∧ (15 : Byte).toNat < 16 ∧ open2.state = .opened :=
  ⟨⟨rfl, rfl⟩, by decide⟩

theorem witness_SessionsEndAndAnswer :
    PortRequest (inSession (hpSu [⟨.p2, 7, .leave⟩]) open2) .p2 7 .leave [] ∧
      PortRequest (inSession (hpSu [⟨.p2, 7, .ping⟩]) open2) .p2 7 .ping [] ∧
      PortRequest (hpSu [⟨.p2, 7, .nop⟩]) .p2 7 .nop [] ∧ PortRequest (hpSu [⟨.p2, 7, .hostStatus⟩]) .p2 7 .hostStatus [] ∧
      open2.timer = some 200001 := ⟨⟨rfl, rfl⟩, ⟨rfl, rfl⟩, ⟨rfl, rfl⟩, ⟨rfl, rfl⟩, rfl⟩

theorem witness_DoneReportsCompleteTheTeardown :
    let s := inSession { State.reset with tt := { State.reset.tt with toSu := [.p2] } } closing2
    DoneNext s .tt .p2 { s with tt := { s.tt with toSu := [] } } ∧ closing2.state = .closing ∧
      closing2.awaited.has .tt = true ∧
      (⟨true, false, false, false, false⟩ : AwaitedDone).without .tt = ⟨false, false, false, false, false⟩ :=
  ⟨⟨rfl, .inr (.inl ⟨rfl, [], rfl, rfl⟩)⟩, by decide⟩

/-! ## Witnesses: Configuration Unit -/

theorem witness_LeaseIsTakenOrWaitedFor :
    LeaseRequest (suCu [.request ⟨.p2, 7, .leaseTake 1⟩]) .p2 7 (.leaseTake 1) [] ∧ 2 ≤ (2 : Byte).toNat ∧
      (1 : Byte).toNat < 2 ∧ State.reset.cu.holder = none ∧
      (withLease State.reset (some .p0) [.p1]).cu.holder = some .p0 ∧ Port.p0 ≠ .p2 ∧
      Port.p2 ∉ (withLease State.reset (some .p0) [.p1]).cu.waiting ∧
      (withLease State.reset (some .p0) [.p1, .p2]).cu.waiting = [.p1] ++ .p2 :: [] := ⟨⟨rfl, rfl⟩, by decide⟩

theorem witness_LeaseMovesOn :
    (withLease State.reset (some .p0) [.p1, .p2]).cu.waiting.Nodup ∧
      (∀ q, (withLease State.reset (some .p0) [.p1, .p2]).cu.holder = some q →
        q ∉ (withLease State.reset (some .p0) [.p1, .p2]).cu.waiting) ∧
      LeaseRequest (suCu [.request ⟨.p0, 7, .leaseDrop⟩]) .p0 7 .leaseDrop [] ∧
      LeaseRequest (suCu [.request ⟨.p2, 7, .leaseCancel⟩]) .p2 7 .leaseCancel [] ∧
      (suCu [.purge .p0]).su.toCu = .purge .p0 :: [] :=
  ⟨by decide, fun q h => by cases h; decide, ⟨rfl, rfl⟩, ⟨rfl, rfl⟩, rfl⟩

theorem witness_LeaseGatesAndForwards :
    LeaseRequest (suCu [.request ⟨.p0, 7, .countersClear⟩]) .p0 7 .countersClear [] ∧
      Gated .leaseGatedForward .countersClear ∧ Gated .paramWrite (.paramWrite 0 0) ∧ State.reset.cu.holder ≠ some .p0 :=
  ⟨⟨rfl, rfl⟩, .inr (.inr (.inr ⟨rfl, .inr (.inr (.inr rfl))⟩)), .inl ⟨0, 0, rfl, rfl⟩, by decide⟩

theorem witness_ParametersWrittenCopiedAndRead :
    LeaseRequest (suCu [.request ⟨.p0, 7, .paramWrite 0x14 64⟩]) .p0 7 (.paramWrite 0x14 64) [] ∧
      InRange 0x14 (64 : Word).toInt ∧ ¬ InRange 0x14 (65 : Word).toInt ∧ InRange 8 128 ∧ ¬ InRange 8 64000 ∧
      21 ≤ (21 : Byte).toNat ∧ State.reset.cu.activationPending = false ∧
      (fieldTable (standbyOf State.reset.cu))[(0x14 : Byte).toNat]? = some (16, 0, 64) :=
  ⟨⟨rfl, rfl⟩, ⟨16, 0, 64, by decide⟩, fun ⟨x, lo, hi, h, _, h2, _⟩ => by cases h; revert h2; decide,
    ⟨32, 16, 128, by decide⟩, fun ⟨x, lo, hi, h, _, h2, _⟩ => by cases h; revert h2; decide, by decide⟩

theorem witness_BanksAreActivated :
    LeaseRequest (suCu [.request ⟨.p0, 7, .activate⟩]) .p0 7 .activate [] ∧
      { State.reset.tl with toCu := [.state .lost, .boundary] }.toCu = .state .lost :: [.boundary] ∧
      (let b := standbyOf State.reset.cu; b.aLow < b.aHigh ∧ b.td < b.tu ∧ b.ceiling ≤ b.floor) ∧
      { Bank.default with aLow := 2000 }.aHigh ≤ { Bank.default with aLow := 2000 }.aLow := ⟨⟨rfl, rfl⟩, by decide⟩

/-! ## Witnesses: Host Ports and what every step keeps -/

/-- P2 with a transaction just opened by the falling edge of CS2_N: the image's first bit stands on SDO2. -/
def shifting (kind : TransactionKind) (image : List Byte) : State :=
  State.reset.setHp .p2 { HostPort.reset with
    transaction := some ⟨kind, image, 0, [], 0⟩, sdo := .driven ((image.headD 0xFF).getLsbD 7) }

theorem witness_TransactionOpen (kind : TransactionKind) :
    TransactionOpen (shifting kind [0x10, 0, 0, 0, 0, 0xF0]) .p2 kind [0x10, 0, 0, 0, 0, 0xF0] ∧
      TransactionOpen (shifting kind []) .p2 kind [] :=
  ⟨⟨rfl, rfl, ⟨false, rfl, by decide⟩, rfl⟩, ⟨rfl, rfl, ⟨true, rfl, by decide⟩, rfl⟩⟩

/-- NOP with tag 7 takes the check byte F4h. -/
theorem witness_FramedRequestReachesSessionUnit :
    TransactionOpen (shifting .ready []) .p2 .ready [] ∧ TransactionKind.ready ≠ .pending ∧
      sumOf ([(codeAndArgs .nop).1, 7] ++ (codeAndArgs .nop).2 ++ [0xF4]) = 0 :=
  ⟨(witness_TransactionOpen .ready).2, by decide⟩

/-- Section 11.2: ten rising edges of SCK2 after an EMPTY marker's falling edge show the byte 10h and two bits of the next. -/
theorem test_sdo_shows_the_marker :
    ((after (.csRises .p2 (List.replicate 10 true)) (after (.csFalls .p2) State.reset)).hp.get .p2).sdoShown =
      [false, false, false, true, false, false, false, false, false, false] := by decide

theorem witness_FaultyTransactionsAreJudgedInOrder :
    (State.reset.hp.get .p2).transaction = none ∧ ([] : List Bool).length < 8 ∧ (List.replicate 7 true).length < 8 ∧ (∀ n, ((0xFF : Byte).toNat, n) ∉ codeTable) ∧
      ((0x20 : Byte).toNat, 13) ∈ codeTable ∧ (List.replicate 15 (0x20 : Byte)).length < 13 + 3 ∧
      13 + 3 ≤ (List.replicate 16 (0x21 : Byte)).length ∧ sumOf [0x20, 1] ≠ 0 :=
  ⟨rfl, by decide, by decide, fun n h => by simp [codeTable] at h, by decide⟩

theorem witness_ResponsesAndHeaderValuesAreHeld :
    { State.reset.lu with toHp := ⟨[], [], [⟨.ok, 7, []⟩], []⟩ }.toHp.get .p2 = ⟨.ok, 7, []⟩ :: [] ∧
      { State.reset.su with toHp := ⟨[], [], [.epoch 1], []⟩ }.toHp.get .p2 = .epoch 1 :: [] ∧
      { State.reset.nu with toHp := ⟨[], [], [.queueLength 16], []⟩ }.toHp.get .p2 = .queueLength 16 :: [] := by decide

/-- A state that meets what every step keeps: after reset, with P2's session OPEN. -/
def p2Open : State := inSession State.reset open2

theorem witness_step_of_sound_state : step p2Open = .next { p2Open with now := 1 } := rfl

theorem witness_intake_and_loop_sound : p2Open.si.Sound ∧ p2Open.tl.loop.Sound :=
  ⟨⟨by decide, by decide⟩, by decide, by decide, by decide, by decide, by decide⟩

theorem witness_table_lines_and_ports_sound : p2Open.tt.Sound ∧ p2Open.lu.Sound ∧ ∀ p, (p2Open.hp.get p).Sound :=
  ⟨fun i b h => by simp [p2Open, inSession, State.reset, State.resetValues, TriggerTable.reset] at h,
    fun l => by cases l <;> decide, fun p => by cases p <;> exact ⟨fun t h => (by cases h), by decide⟩⟩

theorem witness_notices_and_sessions_sound : p2Open.nu.Sound ∧ p2Open.su.Sound :=
  ⟨fun p => by
      cases p <;> exact ⟨by decide, List.Pairwise.nil, by decide, fun i h => absurd h (Nat.not_lt_zero i), by decide, by decide⟩,
    fun p => by
      cases p <;> exact ⟨by decide, by decide,
        ⟨fun h => by first | (obtain ⟨_, h⟩ := h; cases h; done) | decide,
          fun h => by first | exact ⟨_, rfl⟩ | exact absurd h.1 (by decide)⟩, by decide⟩⟩

theorem witness_banks_and_lease_sound : p2Open.cu.Sound :=
  ⟨fun f => (by cases f <;> decide), fun f => (by cases f <;> decide), by decide, by decide, fun p h => (by cases h), by decide,
    by decide⟩

theorem witness_timers_sound : p2Open.TimersSound := ⟨fun h => absurd rfl h, by decide⟩

theorem witness_holdings_tied : ∀ p, p2Open.TableTied p ∧ p2Open.LeaseTied p := by
  intro p
  refine ⟨⟨fun _ => ⟨fun i => by simp [p2Open, inSession, State.reset, State.resetValues, TriggerTable.reset, TriggerTable.heldBy],
      rfl⟩, fun h => ?_, fun _ h => (nomatch h), Nat.zero_le 1, fun h => (nomatch h)⟩,
    ⟨fun _ => ⟨by cases p <;> decide, by cases p <;> decide, rfl⟩, fun h => ?_, fun _ h => (nomatch h), Nat.zero_le 1,
      fun h => (nomatch h)⟩⟩ <;> (cases p <;> cases h)

theorem witness_lines_and_notices_tied : ∀ p, p2Open.LineTied p ∧ p2Open.NoticeTied p := by
  intro p
  refine ⟨⟨fun _ => ⟨fun l => by cases l <;> cases p <;> decide, rfl, by cases p <;> decide⟩, fun h => ?_, fun h => ?_,
      fun _ => ⟨fun h => (nomatch h), by cases p <;> decide⟩, Nat.zero_le 1, fun h => (nomatch h)⟩,
    ⟨fun _ => ⟨by cases p <;> decide, by cases p <;> decide, rfl⟩, fun h => ?_,
      fun _ => ⟨fun h => (nomatch h), by cases p <;> decide⟩, Nat.zero_le 1, fun h => (nomatch h)⟩⟩ <;> (cases p <;> cases h)

end Sys2Proof.Tests
end

section
/-! The expiry of the stale timer (R12): what STALE becoming active does to the sets of causes, what `expire` does
in each state of STALE, and the whole next state of the command at its tick. -/

namespace Sys2Proof.Machine

/-! ## STALE in the sets of causes -/

/-- With STALE inactive before, STALE alone is what became active. -/
theorem CauseSet.diff_raise_stale {a : CauseSet} (h : a.stale = false) :
    CauseSet.diff { a with stale := true } a = ⟨false, false, false, true⟩ := by
  simp [CauseSet.diff, h]

/-- With STALE inactive before, STALE alone differs (R24). -/
theorem CauseSet.differing_raise_stale {a : CauseSet} (h : a.stale = false) :
    CauseSet.differing { a with stale := true } a = ⟨false, false, false, true⟩ := by
  simp [CauseSet.differing_eq, h]

/-- A sticky set joined by STALE alone keeps its other three causes (R25). -/
theorem CauseSet.union_stale (c : CauseSet) : c.union ⟨false, false, false, true⟩ = { c with stale := true } := by
  simp [CauseSet.union]

/-! ## The two cases of an expiry (R12) -/

namespace SampleIntake

/-- One health report goes to NU when the set of active causes has changed (R24). -/
theorem reportHealth_of_changed {si : SampleIntake} {before : CauseSet} (h : si.active ≠ before) :
    si.reportHealth before = { si with toNu := si.toNu ++ [⟨si.active, si.active.differing before, si.stamp⟩] } :=
  if_neg h

/-- An expiry that finds STALE active counts and restarts the timer, and does nothing else. -/
theorem expire_of_stale (b : Bank) (now : Nat) {si : SampleIntake} (h : si.active.stale = true) :
    si.expire b now = { si with
      runs := { si.runs with stale := staleRunInc si.runs.stale }
      staleTimer := some (timerEnd now b.staleTimeout) } :=
  if_pos h

/-- An expiry that finds STALE inactive makes it active as well: the baseline is lost, TL is told, STALE joins the sticky
set of every open port, and NU gets a report of that one change. -/
theorem expire_of_not_stale (b : Bank) (now : Nat) {si : SampleIntake} (h : si.active.stale = false) :
    si.expire b now = { si with
      runs := { si.runs with stale := staleRunInc si.runs.stale }
      staleTimer := some (timerEnd now b.staleTimeout)
      baseline := none
      active := { si.active with stale := true }
      toTl := si.toTl ++ [SiTlMsg.stale]
      sticky := ⟨si.sticky.p0.map ({ · with stale := true }), si.sticky.p1.map ({ · with stale := true }),
        si.sticky.p2.map ({ · with stale := true }), si.sticky.p3.map ({ · with stale := true })⟩
      toNu := si.toNu ++ [⟨{ si.active with stale := true }, ⟨false, false, false, true⟩, si.stamp⟩] } := by
  have changed : ({ si.active with stale := true } : CauseSet) ≠ si.active := fun same => by
    rw [← same] at h
    cases h
  unfold expire
  rw [if_neg (by simp [h])]
  refine (reportHealth_of_changed changed).trans ?_
  simp only [stick, CauseSet.diff_raise_stale h, CauseSet.differing_raise_stale h, CauseSet.union_stale]

end SampleIntake

/-! ## The command at its tick (R198) -/

/-- The timebase stays where it has already reached the tick. -/
theorem State.advanceTo_reached {s : State} {t : Nat} (h : t ≤ s.now) : s.advanceTo t = s := by
  simp only [State.advanceTo, Nat.max_eq_left h]

theorem exec_staleTimerExpiry (s : State) : exec .staleTimerExpiry s = execStaleTimerExpiry s := rfl

/-- The stale timer's expiry, once its tick is reached, is taken by SI alone. -/
theorem exec_staleTimerExpiry_reached {s : State} {e : Nat} (running : s.phase = .running)
    (timer : s.si.staleTimer = some e) (reached : e ≤ s.now) :
    exec .staleTimerExpiry s = .next { s with si := s.si.expire s.bank s.now } := by
  rw [exec_staleTimerExpiry, execStaleTimerExpiry, State.running_of_running running]
  simp only [timer, State.expireAt_reached reached, State.advanceTo_reached reached]

/-- Settles O10: the command is SI's expiry, which has two cases by the state of STALE. -/
theorem staleTimerExpiry : Obligations.StaleTimerExpiry := by
  intro s e running timer reached
  have taken := exec_staleTimerExpiry_reached running timer reached
  refine ⟨fun active => ?staleActive, fun inactive => ?staleInactive⟩
  case staleActive =>
    rw [taken, SampleIntake.expire_of_stale s.bank s.now active]
    rfl
  case staleInactive =>
    rw [taken, SampleIntake.expire_of_not_stale s.bank s.now inactive]
    rfl

end Sys2Proof.Machine
end

section
/-! The requests that book an entry and that name one, and their refusals (R74 to R77): what each command does with the
request it takes, how a booking is identified, and the argument check of BOOK beside the list of faults. -/

namespace Sys2Proof.Machine

open Sys2Proof.Claims

/-! ## The request at the head of SU → TT is taken -/

section Taken

variable {s : State} {p : Port} {tag : Byte} {rest : List SuTtMsg} {index : Byte} {serial : Word}

theorem exec_book {angle : Word} {dir act line mode : Byte} {dist rem : Word} {conf : Byte} {hostTag : Word}
    (request : TableRequest s p tag (.book angle dir act line mode dist rem conf hostTag) rest) :
    exec .book s = .next { s.takeSuTt rest with
      tt := s.tt.book s.bank p tag (bookArgs angle dir act line mode dist rem conf hostTag) } := by
  obtain ⟨running, path⟩ := request
  change execBook s = _
  simp only [execBook, State.running_of_running running, path]

theorem exec_amend {changes : Byte} {angle : Word} {dir : Byte} {hostTag rem : Word}
    (request : TableRequest s p tag (.amend index serial changes angle dir hostTag rem) rest) :
    exec .amend s = .next { s.takeSuTt rest with
      tt := s.tt.amend p tag index serial (amendArgs changes angle dir hostTag rem) } := by
  obtain ⟨running, path⟩ := request
  change execAmend s = _
  simp only [execAmend, State.running_of_running running, path]

theorem exec_cancel (request : TableRequest s p tag (.cancel index serial) rest) :
    exec .cancel s = .next { s.takeSuTt rest with tt := s.tt.cancel p tag index serial } := by
  obtain ⟨running, path⟩ := request
  change execCancel s = _
  simp only [execCancel, State.running_of_running running, path]

theorem exec_suspend (request : TableRequest s p tag (.suspend index serial) rest) :
    exec .suspend s = .next { s.takeSuTt rest with tt := s.tt.suspend p tag index serial } := by
  obtain ⟨running, path⟩ := request
  change execSuspend s = _
  simp only [execSuspend, State.running_of_running running, path]

theorem exec_resume (request : TableRequest s p tag (.resume index serial) rest) :
    exec .resume s = .next { s.takeSuTt rest with tt := s.tt.resume p tag index serial } := by
  obtain ⟨running, path⟩ := request
  change execResume s = _
  simp only [execResume, State.running_of_running running, path]

end Taken

/-- TT with its request taken and one answer sent is the state the statements call `tableAnswers`. -/
theorem takeSuTt_answer (s : State) (rest : List SuTtMsg) (t : TriggerTable) (p : Port) (tag : Byte) (st : Status)
    (payload : List Byte) :
    { s.takeSuTt rest with tt := t.answer p tag st payload } = tableAnswers s rest t p tag st payload := rfl

/-! ## A booking that is not identified (R74) -/

namespace TriggerTable

section Identify

variable {t : TriggerTable} {p : Port} {index : Byte} {serial : Word} {i : EntryIndex} {b : Booking}

theorem identify_of_index_out (out : 64 ≤ index.toNat) :
    t.identify p index serial = .error (.badArgument, [1]) := by
  simp only [identify, indexOf_eq_none out]

theorem identify_of_free (at_index : i.val = index.toNat) (free : t.entries[i] = none) :
    t.identify p index serial = .error (.noEntry, []) := by
  simp only [identify, indexOf_of_eq at_index, free]

theorem identify_of_other_serial (at_index : i.val = index.toNat) (found : t.entries[i] = some b)
    (other : b.serial ≠ serial) : t.identify p index serial = .error (.noEntry, []) := by
  simp only [identify, indexOf_of_eq at_index, found, if_pos other]

theorem identify_of_other_owner (at_index : i.val = index.toNat) (found : t.entries[i] = some b)
    (same : b.serial = serial) (other : b.owner ≠ p) : t.identify p index serial = .error (.notOwner, []) := by
  simp only [identify, indexOf_of_eq at_index, found, if_neg (not_not.mpr same), if_pos other]

end Identify

end TriggerTable

/-- The model's remaining and the statements' are in range together (R75, R197). -/
theorem remainingOf_eq_none_iff (rem : Word) : remainingOf rem = none ↔ remainingOk rem = false := by
  rw [remainingOf_eq_none, ← Bool.not_eq_true]
  simp only [remainingOk, Bool.or_eq_true, Bool.and_eq_true, decide_eq_true_eq, beq_iff_eq]
  tauto

theorem amendArgs_of_amendOk {changes dir : Byte} {rem : Word} (angle hostTag : Word) (h : amendOk changes dir rem) :
    ∃ a, amendArgs changes angle dir hostTag rem = .ok a := by
  obtain ⟨changes_lt, dir_lt, rem_ok⟩ := h
  refine ⟨_, amendArgs_ok angle hostTag changes_lt (fun named => ?_) (fun named => ?_)⟩
  · rw [Ne, directionOf_eq_none]
    exact not_le.mpr (dir_lt named)
  · simp [remainingOf_eq_none_iff, rem_ok named]

/-- Each of the four requests that name a booking sends the refusal of the identification, and changes nothing. -/
theorem exec_of_identify_error {s : State} {p : Port} {tag : Byte} {rest : List SuTtMsg} {c : Instr} {body : ReqBody}
    {index : Byte} {serial : Word} {st : Status} {payload : List Byte} (request : TableRequest s p tag body rest)
    (names : NamesBooking c body index serial) (refused : s.tt.identify p index serial = .error (st, payload)) :
    exec c s = .next (tableAnswers s rest s.tt p tag st payload) := by
  rw [← takeSuTt_answer]
  rcases names with ⟨rfl, rfl⟩ | ⟨rfl, rfl⟩ | ⟨rfl, rfl⟩ | ⟨rfl, ch, angle, dir, hostTag, rem, rfl, ok⟩
  case inl => simp only [exec_cancel request, TriggerTable.cancel, refused]
  case inr.inl => simp only [exec_suspend request, TriggerTable.suspend, refused]
  case inr.inr.inl => simp only [exec_resume request, TriggerTable.resume, refused]
  case inr.inr.inr =>
    obtain ⟨a, args⟩ := amendArgs_of_amendOk angle hostTag ok
    simp only [exec_amend request, TriggerTable.amend, args, refused]

/-- Settles O23: the four commands refuse as the identification does, which has one case for each check. -/
theorem bookingIsIdentifiedInOrder : Obligations.BookingIsIdentifiedInOrder := by
  intro s p tag rest c body index serial request names
  have refuses {st : Status} {payload : List Byte} := exec_of_identify_error (st := st) (payload := payload) request names
  refine ⟨fun out => refuses (TriggerTable.identify_of_index_out out), fun i at_index => ⟨?free, ?serial, ?owner⟩⟩
  case free => exact fun free => refuses (TriggerTable.identify_of_free at_index free)
  case serial => exact fun b found other => refuses (TriggerTable.identify_of_other_serial at_index found other)
  case owner =>
    exact fun b found same other => refuses (TriggerTable.identify_of_other_owner at_index found same other)

/-! ## The argument check of BOOK and the list of its faults (R75) -/

/-- The number of the argument a check refuses, none where it passes. -/
def faultNumber {α : Type} : Except Nat α → Option Nat
  | .error n => some n
  | .ok _ => none

theorem eq_error_of_faultNumber {α : Type} {r : Except Nat α} {n : Nat} (h : faultNumber r = some n) : r = .error n := by
  cases r with
  | error m => cases h; rfl
  | ok a => cases h

theorem eq_ok_of_faultNumber {α : Type} {r : Except Nat α} (h : faultNumber r = none) : ∃ a, r = .ok a := by
  cases r with
  | error m => cases h
  | ok a => exact ⟨a, rfl⟩

/-- An action byte is NOTICE, one of the two that pulse, or out of range. -/
theorem action_byte_cases (act : Byte) : act = 0 ∨ (act = 1 ∨ act = 2) ∨ 3 ≤ act.toNat := by
  bv_omega

/-- A mode byte is ONCE, REARM, or out of range. -/
theorem mode_byte_cases (mode : Byte) : mode = 0 ∨ mode = 1 ∨ 2 ≤ mode.toNat := by
  bv_omega

theorem actionOf_out {act : Byte} (line : Byte) (h : 3 ≤ act.toNat) : actionOf act line = .error 3 := by
  unfold actionOf
  split
  · omega
  · omega
  · omega
  · rfl

/-- A pulsing action is read with the line the line byte spells, and refused where that spells none. -/
theorem actionOf_of_pulses {act : Byte} (pulses : act = 1 ∨ act = 2) (line : Byte) :
    (lineOf line = none ∧ actionOf act line = .error 4) ∨
      ∃ l a, lineOf line = some l ∧ a.line? = some l ∧ actionOf act line = .ok a := by
  cases h : lineOf line with
  | none => exact .inl ⟨rfl, by rcases pulses with rfl | rfl <;> simp [actionOf, h]⟩
  | some l =>
    refine .inr ⟨l, ?_⟩
    rcases pulses with rfl | rfl
    · exact ⟨.pulse l, rfl, rfl, by simp [actionOf, h]⟩
    · exact ⟨.noticeAndPulse l, rfl, rfl, by simp [actionOf, h]⟩

theorem modeOf_out {mode : Byte} (dist rem : Word) (h : 2 ≤ mode.toNat) : modeOf mode dist rem = .error 5 := by
  unfold modeOf
  split
  · omega
  · omega
  · rfl

/-- The action check refuses argument 3 out of range, then a pulsing action's line out of range. -/
theorem faultNumber_actionOf (act line : Byte) :
    faultNumber (actionOf act line) =
      ((if 3 ≤ act.toNat then [3] else []) ++
        (if (act = 1 ∨ act = 2) ∧ 4 ≤ line.toNat then [4] else [])).head? := by
  simp only [← lineOf_eq_none]
  rcases action_byte_cases act with rfl | pulses | out
  · rfl
  · have in_range : ¬ 3 ≤ act.toNat := by rcases pulses with rfl | rfl <;> decide
    rcases actionOf_of_pulses pulses line with ⟨no_line, read⟩ | ⟨l, a, spelt, -, read⟩
    · rw [read, if_neg in_range, if_pos ⟨pulses, no_line⟩]
      rfl
    · simp [faultNumber, read, in_range, spelt]
  · rw [actionOf_out line out, if_pos out]; rfl

/-- The mode check refuses argument 5 out of range, then, for REARM, the distance and the remaining out of range. -/
theorem faultNumber_modeOf (mode : Byte) (dist rem : Word) :
    faultNumber (modeOf mode dist rem) =
      ((if 2 ≤ mode.toNat then [5] else []) ++
        (if mode = 1 ∧ (dist.toNat = 0 ∨ 16384 < dist.toNat) then [6] else []) ++
        (if mode = 1 ∧ remainingOk rem = false then [7] else [])).head? := by
  simp only [← remainingOf_eq_none_iff]
  rcases mode_byte_cases mode with rfl | rfl | out
  · rfl
  · have in_range : (1 ≤ dist.toNat ∧ dist.toNat ≤ 16384) ↔ ¬ (dist.toNat = 0 ∨ 16384 < dist.toNat) := by omega
    by_cases bad : dist.toNat = 0 ∨ 16384 < dist.toNat
    · simp [modeOf, faultNumber, in_range, bad]
    · cases h : remainingOf rem <;> simp [modeOf, faultNumber, in_range, bad, h]
  · rw [modeOf_out dist rem out, if_pos out]; rfl

/-- The argument check of BOOK asks its four readers in order, and refuses with the first that refuses. -/
theorem faultNumber_bookArgs (angle : Word) (dir act line mode : Byte) (dist rem : Word) (conf : Byte) (hostTag : Word) :
    faultNumber (bookArgs angle dir act line mode dist rem conf hostTag) =
      (((if 3 ≤ dir.toNat then [2] else []).head?.or (faultNumber (actionOf act line))).or
        (faultNumber (modeOf mode dist rem))).or (if 2 ≤ conf.toNat then [8] else []).head? := by
  simp only [← directionOf_eq_none, ← confidenceOf_eq_none]
  unfold bookArgs
  cases hd : directionOf dir with
  | none => simp [faultNumber]
  | some d =>
    cases ha : actionOf act line with
    | error n => simp [faultNumber]
    | ok a =>
      cases hm : modeOf mode dist rem with
      | error n => simp [faultNumber]
      | ok m => cases hc : confidenceOf conf <;> simp [faultNumber]

/-- BOOK is refused with the number of its first fault, and passes its argument check when there is none. -/
theorem faultNumber_bookArgs_eq_head (angle : Word) (dir act line mode : Byte) (dist rem : Word) (conf : Byte)
    (hostTag : Word) :
    faultNumber (bookArgs angle dir act line mode dist rem conf hostTag) =
      (bookFaults dir act line mode dist rem conf).head? := by
  rw [faultNumber_bookArgs, faultNumber_actionOf, faultNumber_modeOf, bookFaults]
  simp only [← List.head?_append, List.append_assoc]

/-! ## The line a BOOK names (R76) and the caller's count (R77) -/

theorem lineOf_eq_some (line : Byte) (l : Line) : lineOf line = some l ↔ l.byte = line := by
  constructor
  · intro read
    unfold lineOf at read
    split at read <;> cases read <;> (simp only [Line.byte]; bv_omega)
  · rintro rfl
    exact lineOf_byte l

/-- The line of an action that was read: the one the line byte spells, for the two actions that pulse. -/
theorem line?_of_actionOf {act line : Byte} {a : Action} (read : actionOf act line = .ok a) (l : Line) :
    a.line? = some l ↔ (act = 1 ∨ act = 2) ∧ l.byte = line := by
  rw [← lineOf_eq_some]
  rcases action_byte_cases act with rfl | pulses | out
  · cases read
    simp [Action.line?]
  · rcases actionOf_of_pulses pulses line with ⟨-, refused⟩ | ⟨m, b, spelt, names, read'⟩
    · cases refused.symm.trans read
    · cases read'.symm.trans read
      rw [names, spelt, and_iff_right pulses]
  · cases (actionOf_out line out).symm.trans read

/-- The action of the arguments that passed is the one the action byte and the line byte spell. -/
theorem actionOf_of_bookArgs {angle : Word} {dir act line mode : Byte} {dist rem : Word} {conf : Byte} {hostTag : Word}
    {a : BookArgs} (passed : bookArgs angle dir act line mode dist rem conf hostTag = .ok a) :
    actionOf act line = .ok a.action := by
  unfold bookArgs at passed
  repeat' split at passed
  all_goals cases passed
  assumption

namespace TriggerTable

theorem holdsLine_iff (t : TriggerTable) (p : Port) (a : Action) :
    t.holdsLine p a = true ↔ ∀ l, a.line? = some l → t.lineOwner.get l = some p := by
  unfold holdsLine
  cases a.line? <;> simp

/-- The statements' count of a port's entries is the table's own. -/
theorem heldCount_eq_count (t : TriggerTable) (p : Port) : heldCount t p = t.count p := by
  rw [count_eq, List.countP_eq_length_filter, heldCount]
  congr 2
  funext i
  cases h : t.entries[i] <;> simp [heldBy]

/-! ## BOOK's three refusals, in their order (R75 to R77) -/

section Book

variable {bank : Bank} {t : TriggerTable} {p : Port} {tag : Byte} {a : BookArgs}

theorem book_of_bad_argument (n : Nat) : t.book bank p tag (.error n) = t.answer p tag .badArgument [byteOf n] := rfl

theorem book_of_line_not_held (h : t.holdsLine p a.action = false) :
    t.book bank p tag (.ok a) = t.answer p tag .lineNotHeld [] := by
  simp only [book, h, Bool.not_false, if_true]

theorem book_of_quota_reached (h : t.holdsLine p a.action = true) (reached : bank.quota.get p ≤ t.count p) :
    t.book bank p tag (.ok a) = t.answer p tag .quotaReached [byteOf (bank.quota.get p)] := by
  simp only [book, h, Bool.not_true, Bool.false_eq_true, if_false, if_pos reached]

end Book

end TriggerTable

/-- Settles O22: the argument check refuses with the head of the list of faults; without a fault the line check is that of
the line the request names, and the quota check that of the entries counted. -/
theorem bookIsRefusedInOrder : Obligations.BookIsRefusedInOrder := by
  intro s p tag rest angle dir act line mode dist rem conf hostTag request faults pulses owns
  have head : faultNumber (bookArgs angle dir act line mode dist rem conf hostTag) = faults.head? :=
    faultNumber_bookArgs_eq_head ..
  have passes (clean : faults = []) : ∃ a, bookArgs angle dir act line mode dist rem conf hostTag = .ok a ∧
      (s.tt.holdsLine p a.action = true ↔ (pulses → owns)) := by
    obtain ⟨a, passed⟩ := eq_ok_of_faultNumber (head.trans (by rw [clean]; rfl))
    refine ⟨a, passed, (TriggerTable.holdsLine_iff ..).trans ?_⟩
    simp only [line?_of_actionOf (actionOf_of_bookArgs passed)]
    exact ⟨fun h pulse l same => h l ⟨pulse, same⟩, fun h l ⟨pulse, same⟩ => h pulse l same⟩
  simp only [exec_book request, ← takeSuTt_answer]
  refine ⟨fun n more first => ?argument, fun clean pulse unowned => ?line, fun clean owned reached => ?quota⟩
  case argument =>
    rw [eq_error_of_faultNumber (head.trans (by rw [first]; rfl)), TriggerTable.book_of_bad_argument]
  case line =>
    obtain ⟨a, passed, holds⟩ := passes clean
    have unheld : s.tt.holdsLine p a.action = false :=
      Bool.eq_false_iff.mpr fun held => unowned (holds.mp held pulse)
    rw [passed, TriggerTable.book_of_line_not_held unheld]
  case quota =>
    obtain ⟨a, passed, holds⟩ := passes clean
    rw [TriggerTable.heldCount_eq_count] at reached
    rw [passed, TriggerTable.book_of_quota_reached (holds.mpr owned) reached]

end Sys2Proof.Machine
end

section
/-! A step report whose ambiguity flag is set (R100): no entry is found in the evaluation phase, so the firing phase is
empty, and the re-arming phase takes each entry by itself. -/

namespace Sys2Proof.Machine

open Sys2Proof.Claims

theorem exec_stepReport {s : State} {r : StepReport} {rest : List StepReport} (running : s.phase = .running)
    (path : s.tl.toTt = r :: rest) :
    exec .stepReport s = .next { s with tl := { s.tl with toTt := rest }, tt := s.tt.takeReport r } := by
  change execStepReport s = _
  simp only [execStepReport, State.running_of_running running, path]

/-- The ambiguity flag is the first of the qualifiers: with it set no booking fires (R100). -/
theorem Booking.firesOn_of_ambiguous {r : StepReport} (ambiguous : r.ambiguous = true) (b : Booking) :
    b.firesOn r = false := by
  simp only [firesOn, ambiguous, Bool.not_true, Bool.false_and]

namespace TriggerTable

theorem candidateAt_of_ambiguous {r : StepReport} (ambiguous : r.ambiguous = true) (t : TriggerTable)
    (i : EntryIndex) : t.candidateAt r i = none := by
  unfold candidateAt
  cases t.entries[i] with
  | none => rfl
  | some b => simp only [Booking.firesOn_of_ambiguous ambiguous b, Bool.false_eq_true, if_false]

theorem evaluate_of_ambiguous {r : StepReport} (ambiguous : r.ambiguous = true) (t : TriggerTable) :
    t.evaluate r = [] :=
  List.filterMap_eq_nil_iff.mpr fun i _ => candidateAt_of_ambiguous ambiguous t i

/-- With no candidate the firing phase leaves the table as it is, and the re-arming phase is the whole report. -/
theorem takeReport_of_ambiguous {r : StepReport} (ambiguous : r.ambiguous = true) (t : TriggerTable) :
    t.takeReport r = t.rearm r.newAngle := by
  rw [takeReport, evaluate_of_ambiguous ambiguous]
  rfl

/-- The model's re-arming of an entry is the statements' test on the booking it holds (R106). -/
theorem rearmed_eq_map (newAngle : Word) (e : Entry) : rearmed newAngle e = e.map (rearmedAt newAngle) := by
  cases e with
  | none => rfl
  | some b =>
    simp only [rearmed, Option.map_some, rearmedAt, circularDistance]
    cases b.state with
    | recovering =>
      cases b.mode with
      | once => rfl
      | rearm d left => exact (apply_ite some ..).symm
    | armed | suspended _ | spent => rfl

theorem rearm_entries_getElem (t : TriggerTable) (newAngle : Word) (i : EntryIndex) :
    (t.rearm newAngle).entries[i] = t.entries[i].map (rearmedAt newAngle) := by
  rw [← rearmed_eq_map]
  exact Vector.getElem_map ..

end TriggerTable

/-- Settles O30: the report is its re-arming phase alone, which writes the entries and no other field of TT. -/
theorem ambiguousReportOnlyRearms : Obligations.AmbiguousReportOnlyRearms := by
  intro s r rest running path ambiguous
  refine ⟨(s.tt.rearm r.newAngle).entries, ?_, s.tt.rearm_entries_getElem r.newAngle⟩
  rw [exec_stepReport running path, TriggerTable.takeReport_of_ambiguous ambiguous]
  rfl

end Sys2Proof.Machine
end

section
/-! A drop message (R127): with at most one owed item for an index, the items kept are those that stand before and after
the one named; with none named, and at a closed port, NU stays as it was. -/

namespace Sys2Proof.Machine

theorem exec_dropMessage {s : State} {p : Port} {i : EntryIndex} {serial : Word} {rest : List TtNuMsg}
    (running : s.phase = .running) (path : s.tt.toNu = .drop p i serial :: rest) :
    exec .dropMessage s = .next { s.takeTtNu rest with nu := s.nu.takeDrop p i serial } := by
  change execDropMessage s = _
  simp only [execDropMessage, State.running_of_running running, path]

/-! ## The owed items a drop message keeps (R113, R127) -/

section Kept

variable {i : EntryIndex} {serial : Word} {before after l : List Fired} {x : Fired}

theorem filter_unnamed_of_none (unnamed : ∀ f ∈ l, ¬ (f.index = i ∧ f.serial = serial)) :
    l.filter (fun f => !(f.index == i && f.serial == serial)) = l :=
  List.filter_eq_self.mpr fun f mem => by simpa [imp_iff_not_or] using unnamed f mem

/-- In index order no other item has the index of x (R113). -/
theorem index_ne_of_ordered (ordered : (before ++ x :: after).Pairwise (fun a b => a.index < b.index)) :
    (∀ f ∈ before, f.index ≠ x.index) ∧ ∀ f ∈ after, f.index ≠ x.index := by
  obtain ⟨-, from_x, below⟩ := List.pairwise_append.mp ordered
  exact ⟨fun f mem => (below f mem x List.mem_cons_self).ne,
    fun f mem => (List.rel_of_pairwise_cons from_x mem).ne'⟩

theorem filter_unnamed_of_ordered (ordered : (before ++ x :: after).Pairwise (fun a b => a.index < b.index)) :
    (before ++ x :: after).filter (fun f => !(f.index == x.index && f.serial == x.serial)) = before ++ after := by
  obtain ⟨others_before, others_after⟩ := index_ne_of_ordered ordered
  rw [List.filter_append, List.filter_cons_of_neg (by simp),
    filter_unnamed_of_none fun f mem named => others_before f mem named.1,
    filter_unnamed_of_none fun f mem named => others_after f mem named.1]

end Kept

/-! ## NU after a drop message (R127) -/

namespace NoticeUnit

variable {n : NoticeUnit} {p : Port} {i : EntryIndex} {serial : Word}

theorem setPort_get (n : NoticeUnit) (p : Port) : n.setPort p (n.ports.get p) = n := by
  simp only [setPort, PerPort.set_get]

theorem takeDrop_of_closed (closed : (n.ports.get p).opened = false) : n.takeDrop p i serial = n :=
  if_neg (by simp [closed])

theorem takeDrop_of_opened (opened : (n.ports.get p).opened = true) :
    n.takeDrop p i serial = n.setPort p { n.ports.get p with
      owed := (n.ports.get p).owed.filter (fun f => !(f.index == i && f.serial == serial)) } :=
  if_pos opened

/-- A drop message that names no owed item is ignored. -/
theorem takeDrop_of_none (opened : (n.ports.get p).opened = true)
    (unnamed : ∀ f ∈ (n.ports.get p).owed, ¬ (f.index = i ∧ f.serial = serial)) : n.takeDrop p i serial = n := by
  rw [takeDrop_of_opened opened, filter_unnamed_of_none unnamed]
  exact setPort_get n p

/-- A drop message takes the item it names out of the owed list, and changes nothing else. -/
theorem takeDrop_of_owed {before after : List Fired} {x : Fired} (opened : (n.ports.get p).opened = true)
    (owed : (n.ports.get p).owed = before ++ x :: after)
    (ordered : (before ++ x :: after).Pairwise (fun a b => a.index < b.index)) :
    n.takeDrop p x.index x.serial = n.setPort p { n.ports.get p with owed := before ++ after } := by
  rw [takeDrop_of_opened opened, owed, filter_unnamed_of_ordered ordered]

end NoticeUnit

/-- Settles O33: the command is NU's own drop, which has one equation for each of the three cases. -/
theorem dropRemovesTheOwedItem : Obligations.DropRemovesTheOwedItem := by
  intro s p i serial rest running path
  have taken := exec_dropMessage running path
  refine ⟨fun before x after opened owed same_index same_serial ordered => ?removed, fun opened unnamed => ?unnamed,
    fun closed => ?closed⟩
  case removed =>
    subst same_index same_serial
    rw [taken, NoticeUnit.takeDrop_of_owed opened owed ordered]
    rfl
  case unnamed =>
    rw [taken, NoticeUnit.takeDrop_of_none opened unnamed]
    rfl
  case closed =>
    rw [taken, NoticeUnit.takeDrop_of_closed closed]
    rfl

end Sys2Proof.Machine
end

section
/-! What one step can do, said once. Every command but the three of a reset stands behind the gate of R199, and what a
command does to a running device is one case of `Effect`; a property of the blocks that the reset values meet and every
effect keeps is kept by every step (`step_keeps`). -/

namespace Sys2Proof.Machine

/-! ## The gate of a reset (R199) -/

theorem exec_gated {c : Instr} (not_reset : c ≠ .reset) (not_high : c ≠ .resetFoundHigh) (not_end : c ≠ .resetEnd) :
    ∃ f, ∀ s, exec c s = s.running f := by
  cases c <;> first | contradiction | exact ⟨_, fun _ => rfl⟩

/-- A gated happening in which every outcome for a running device is allowed, and no change is. -/
theorem State.running_elim {s t : State} {f : State → State} {P : State → Prop} (e : s.running f = .next t)
    (same : P s) (effect : P (f s)) : P t := by
  rcases s.running_cases f with ⟨-, h⟩ | ⟨-, h⟩ <;> cases h.symm.trans e
  · exact effect
  · exact same

/-- An expiry named by a command: taken with the timebase at its tick, or not offered. -/
theorem State.expireAt_elim {s : State} {e : Nat} {f : State → State} {P : State → Prop} (same : P s)
    (taken : s.mayReach e = true → P (f (s.advanceTo e))) : P (s.expireAt e f) := by
  rcases s.expireAt_cases e f with ⟨may, h⟩ | ⟨-, h⟩ <;> rw [h]
  · exact taken may
  · exact same

/-! ## What each block does with what it takes -/

/-- SI's baseline, causes, reception and stale timer stand as before. -/
structure SampleIntake.SameIntake (i i' : SampleIntake) : Prop where
  baseline : i'.baseline = i.baseline
  active : i'.active = i.active
  reception : i'.reception = i.reception
  staleTimer : i'.staleTimer = i.staleTimer

/-- What TL makes of a message or a request. -/
inductive TrackingLoop.Act (b : Bank) (t : TrackingLoop) : TrackingLoop → Prop
  | frame (k : BitVec 4) (sine cosine : Int) (usable : Bool) (stamp : Word) :
      Act b t (t.takeFrame b k sine cosine usable stamp)
  | stale : Act b t (t.takeStale b)
  | cleared (p : Port) (tag : Byte) :
      Act b t ({ t with loop := { t.loop with ambiguous := 0, overspeed := 0 } }.answer p tag .ok [])
  | start (p : Port) (tag : Byte) : Act b t (t.start b p tag)
  | halt (p : Port) (tag : Byte) : Act b t (t.halt b p tag)
  | relock (p : Port) (tag : Byte) : Act b t (t.relock b p tag)
  | answered (p : Port) (tag : Byte) (st : Status) (payload : List Byte) : Act b t (t.answer p tag st payload)

/-- What TT makes of a request of port p. -/
inductive TriggerTable.Asked (bank : Bank) (t : TriggerTable) (p : Port) : TriggerTable → Prop
  | book (tag : Byte) (args : Except Nat BookArgs)
      (ranged : ∀ a, args = .ok a → ∀ d n, a.mode = .rearm d (.finite n) → n ≠ 0) :
      Asked bank t p (t.book bank p tag args)
  | amend (tag index : Byte) (serial : Word) (args : Except Nat AmendArgs)
      (ranged : ∀ a, args = .ok a → ∀ n, a.remaining = some (.finite n) → n ≠ 0) :
      Asked bank t p (t.amend p tag index serial args)
  | cancel (tag index : Byte) (serial : Word) : Asked bank t p (t.cancel p tag index serial)
  | suspend (tag index : Byte) (serial : Word) : Asked bank t p (t.suspend p tag index serial)
  | resume (tag index : Byte) (serial : Word) : Asked bank t p (t.resume p tag index serial)
  | readEntry (tag index : Byte) : Asked bank t p (t.readEntry p tag index)
  | listOwn (tag : Byte) : Asked bank t p (t.listOwn p tag)

/-- What NU makes of a report or a drop message. -/
inductive NoticeUnit.Told (n : NoticeUnit) : NoticeUnit → Prop
  | health (r : HealthReport) : Told n (n.takeHealth r)
  | loop (old new : LoopState) (cause : LoopCause) (stamp : Word) (step : GainStep) :
      Told n (n.takeLoop old new cause stamp step)
  | overspeed (velocity : Int) (stamp : Word) : Told n (n.takeOverspeed velocity stamp)
  | lease (holder : Option Port) (grant : Bool) : Told n (n.takeLease holder grant)
  | activation (bank : BankId) : Told n (n.takeActivation bank)
  | fire (f : FireReport) : Told n (n.takeFire f)
  | drop (p : Port) (index : EntryIndex) (serial : Word) : Told n (n.takeDrop p index serial)

/-- What LU makes of a request of port p. -/
inductive LineUnit.Asked (now : Nat) (u : LineUnit) (p : Port) : LineUnit → Prop
  | claim (tag line polarity width : Byte) : Asked now u p (u.takeClaim p tag line polarity width)
  | release (tag line : Byte) : Asked now u p (u.takeRelease p tag line)
  | pulse (tag line : Byte) : Asked now u p (u.takePulse now p tag line)
  | status (tag line : Byte) : Asked now u p (u.takeStatus p tag line)

/-- What LU makes of a pulse request or of a reference added or removed. -/
inductive LineUnit.Told (now : Nat) (u : LineUnit) : LineUnit → Prop
  | pulse (l : Line) (p : Port) : Told now u (u.takePulseRequest now l p)
  | added (l : Line) (p : Port) : Told now u (u.addReference l p)
  | removed (l : Line) (p : Port) : Told now u (u.removeReference l p)

/-- What SU makes of a request: the gate's refusal, or, past the gate, the timer restarted and the request's effect. -/
inductive SessionUnit.Asked (now : Nat) (u : SessionUnit) (r : Request) : SessionUnit → Prop
  | refused (st : Status) : Asked now u r (u.answer r.port r.tag st [])
  | forwarded (admitted : (u.sessions.get r.port).gate r.body = none) (owner : r.body.owner ≠ .su) :
      Asked now u r ((u.hear now r.port).forward r)
  | joined (timeout : Word) (subs : Byte) (body : r.body = .join timeout subs)
      (admitted : (u.sessions.get r.port).gate r.body = none) :
      Asked now u r ((u.hear now r.port).join now r.port r.tag timeout subs)
  | left (body : r.body = .leave) (admitted : (u.sessions.get r.port).gate r.body = none) :
      Asked now u r (((u.hear now r.port).teardown r.port .left).answer r.port r.tag .ok [])
  | answered (payload : List Byte) : Asked now u r ((u.hear now r.port).answer r.port r.tag .ok payload)

/-- What CU makes of a request of port p. -/
inductive ConfigUnit.Asked (c : ConfigUnit) (p : Port) : ConfigUnit → Prop
  | take (tag wait : Byte) : Asked c p (c.leaseTake p tag wait)
  | drop (tag : Byte) : Asked c p (c.leaseDrop p tag)
  | cancel (tag : Byte) : Asked c p (c.leaseCancel p tag)
  | write (tag field : Byte) (value : Word) : Asked c p (c.gated p tag (·.paramWrite p tag field value))
  | copy (tag : Byte) : Asked c p (c.gated p tag (·.paramCopy p tag))
  | read (tag selector field : Byte) : Asked c p (c.paramRead p tag selector field)
  | activate (tag : Byte) : Asked c p (c.gated p tag (·.activate p tag))
  | forward (tag : Byte) (r : Request) : Asked c p (c.gated p tag (·.forwardGated r))

/-! ## What a command does to a running device -/

/-- The next states of a running device by a command other than the three of a reset, block by block. -/
inductive Effect (s : State) : State → Prop
  | still : Effect s s
  | frameOpens : Effect s { s with si := { s.si with reception := ⟨true, 0, 0⟩ } }
  | frameTaken (levels : List Bool) : s.si.reception.inFrame = true →
      Effect s { s with
        si := { s.si with
          reception := { levels.foldl Reception.clock s.si.reception with inFrame := false } }.takeFrame s.bank s.now
            (levels.foldl Reception.clock s.si.reception) }
  | staleExpires (e : Nat) : s.si.staleTimer = some e → s.mayReach e = true →
      Effect s { s.advanceTo e with si := s.si.expire s.bank (max s.now e) }
  | intakeAsked (rest : List SuSiMsg) (si' : SampleIntake) : s.si.SameIntake si' →
      Effect s { s.takeSuSi rest with si := si' }
  | intakeCleared (rest : List Request) (si' : SampleIntake) : s.si.SameIntake si' →
      Effect s { s with cu := { s.cu with toSi := rest }, si := si' }
  | loopActs (siTl : List SiTlMsg) (cuTl suTl : List Request) (tl' : TrackingLoop) : s.tl.Act s.bank tl' →
      Effect s { s with
        si := { s.si with toTl := siTl }, cu := { s.cu with toTl := cuTl }, su := { s.su with toTl := suTl }, tl := tl' }
  | stepReported (r : StepReport) (rest : List StepReport) :
      Effect s { s with tl := { s.tl with toTt := rest }, tt := s.tt.takeReport r }
  | tableAsked (r : Request) (rest : List SuTtMsg) (tt' : TriggerTable) : s.su.toTt = .request r :: rest →
      s.tt.Asked s.bank r.port tt' → Effect s { s.takeSuTt rest with tt := tt' }
  | tablePurged (p : Port) (rest : List SuTtMsg) : s.su.toTt = .purge p :: rest →
      Effect s { s.takeSuTt rest with tt := s.tt.purge p }
  | tableReleased (r : Release) (rest : List Release) :
      Effect s { s with nu := { s.nu with toTt := rest }, tt := s.tt.release r }
  | lineOwnerTold (rest : List LineOwner) (owners : PerLine (Option Port)) :
      Effect s { s with lu := { s.lu with toTt := rest }, tt := { s.tt with lineOwner := owners } }
  | noticeTold (siNu : List HealthReport) (tlNu : List TlNuMsg) (ttNu : List TtNuMsg) (cuNu : List CuNuMsg)
      (nu' : NoticeUnit) : s.nu.Told nu' →
      Effect s { s with
        si := { s.si with toNu := siNu }, tl := { s.tl with toNu := tlNu }, tt := { s.tt with toNu := ttNu }
        cu := { s.cu with toNu := cuNu }, nu := nu' }
  | noticeMarked (p : Port) (rest : List TtNuMsg) : Effect s { s.takeTtNu rest with nu := s.nu.takePurgeMark p }
  | noticePopped (r : Request) (rest : List SuNuMsg) : s.su.toNu = .request r :: rest →
      Effect s { s.takeSuNu rest with nu := s.nu.pop r.port r.tag }
  | noticeOpened (p : Port) (subs : Subscriptions) (rest : List SuNuMsg) : s.su.toNu = .openPort p subs :: rest →
      Effect s { s.takeSuNu rest with nu := s.nu.openPort p subs }
  | noticeClosed (p : Port) (rest : List SuNuMsg) : s.su.toNu = .closePort p :: rest →
      Effect s { s.takeSuNu rest with nu := s.nu.closePort p }
  | linesAsked (r : Request) (rest : List SuLuMsg) (lu' : LineUnit) : s.su.toLu = .request r :: rest →
      s.lu.Asked s.now r.port lu' → Effect s { s.takeSuLu rest with lu := lu' }
  | linesReleased (p : Port) (rest : List SuLuMsg) : s.su.toLu = .releaseAll p :: rest →
      Effect s { s.takeSuLu rest with lu := s.lu.takeReleaseAll p }
  | linesTold (rest : List TtLuMsg) (lu' : LineUnit) : s.lu.Told s.now lu' → Effect s { s.takeTtLu rest with lu := lu' }
  | referencesPurged (p : Port) (rest : List TtLuMsg) :
      Effect s { s.takeTtLu rest with lu := s.lu.takeReferencesPurged p }
  | pulseEnds (l : Line) (p : Port) (e : Nat) : (s.lu.lines.get l).state = .pulsing p e → s.mayReach (e + 1) = true →
      Effect s { s.advanceTo (e + 1) with lu := s.lu.endPulse l p }
  | sessionAsked (p : Port) (r : Request) (rest : List Request) (su' : SessionUnit) : s.su.Asked s.now r su' →
      Effect s { s.takeHpSu p rest with su := su' }
  | sessionExpires (p : Port) (e : Nat) : (s.su.sessions.get p).runningTimer = some e → s.mayReach e = true →
      Effect s { s.advanceTo e with su := s.su.teardown p .expired }
  | doneAtSi (p : Port) (rest : List Port) : s.si.toSu = p :: rest →
      Effect s ({ s with si := { s.si with toSu := rest } }.takeDone .si p)
  | doneAtTt (p : Port) (rest : List Port) : s.tt.toSu = p :: rest →
      Effect s ({ s with tt := { s.tt with toSu := rest } }.takeDone .tt p)
  | doneAtNu (p : Port) (rest : List Port) : s.nu.toSu = p :: rest →
      Effect s ({ s with nu := { s.nu with toSu := rest } }.takeDone .nu p)
  | doneAtLu (p : Port) (rest : List Port) : s.lu.toSu = p :: rest →
      Effect s ({ s with lu := { s.lu with toSu := rest } }.takeDone .lu p)
  | doneAtCu (p : Port) (rest : List Port) : s.cu.toSu = p :: rest →
      Effect s ({ s with cu := { s.cu with toSu := rest } }.takeDone .cu p)
  | leaseAsked (r : Request) (rest : List SuCuMsg) (cu' : ConfigUnit) : s.su.toCu = .request r :: rest →
      s.cu.Asked r.port cu' → Effect s { s.takeSuCu rest with cu := cu' }
  | leasePurged (p : Port) (rest : List SuCuMsg) : s.su.toCu = .purge p :: rest →
      Effect s { s.takeSuCu rest with cu := s.cu.purge p }
  | loopStateTold (new : LoopState) (rest : List TlCuMsg) : Effect s { s.takeTlCu rest with cu := s.cu.takeState new }
  | boundaryTold (rest : List TlCuMsg) : Effect s { s.takeTlCu rest with cu := s.cu.takeBoundary }
  | portFalls (p : Port) : Effect s (s.setHp p (s.hp.get p).fall)
  | portRises (p : Port) (levels : List Bool) (t : Transaction) :
      (levels.foldl HostPort.clock (s.hp.get p)).transaction = some t →
      Effect s (s.setHp p ((levels.foldl HostPort.clock (s.hp.get p)).rise p t))
  | portTold (p : Port) (h : HostPort) (siHp tlHp ttHp luHp cuHp : PerPort (List Response))
      (nuHp : PerPort (List NuHpMsg)) (suHp : PerPort (List SuHpMsg)) :
      h.transaction = (s.hp.get p).transaction → h.sdo = (s.hp.get p).sdo →
      Effect s { s with
        si := { s.si with toHp := siHp }, tl := { s.tl with toHp := tlHp }, tt := { s.tt with toHp := ttHp }
        nu := { s.nu with toHp := nuHp }, lu := { s.lu with toHp := luHp }, su := { s.su with toHp := suHp }
        cu := { s.cu with toHp := cuHp }, hp := s.hp.set p h }

/-! ## The arguments BOOK and AMEND let through (R75, R80) -/

theorem remainingOf_ne_zero {w : Word} {n : BitVec 8} (read : remainingOf w = some (.finite n)) : n ≠ 0 := by
  unfold remainingOf at read
  split at read
  · cases read
  · split at read
    · cases read
      bv_omega
    · cases read

theorem bookArgs_remaining {angle : Word} {dir act line mode : Byte} {dist rem : Word} {conf : Byte} {hostTag : Word}
    {a : BookArgs} (passed : bookArgs angle dir act line mode dist rem conf hostTag = .ok a) (d : Word) (n : BitVec 8)
    (finite : a.mode = .rearm d (.finite n)) : n ≠ 0 := by
  have read : modeOf mode dist rem = .ok a.mode := by
    unfold bookArgs at passed
    repeat' split at passed
    all_goals cases passed
    assumption
  rw [finite] at read
  unfold modeOf at read
  repeat' split at read
  all_goals cases read
  rename_i spelt
  exact remainingOf_ne_zero spelt

theorem amendArgs_remaining {changes dir : Byte} {angle hostTag rem : Word} {a : AmendArgs}
    (passed : amendArgs changes angle dir hostTag rem = .ok a) (n : BitVec 8)
    (finite : a.remaining = some (.finite n)) : n ≠ 0 := by
  unfold amendArgs at passed
  iterate 3
    split at passed
    · cases passed
  cases passed
  dsimp only at finite
  split at finite
  · exact remainingOf_ne_zero finite
  · cases finite

/-! ## Every command is one of these effects -/

/-- A request SU takes is refused by the gate, or heard and given its effect (R147, R149). -/
theorem SessionUnit.judge_asked {now : Nat} {u : SessionUnit} {r : Request} {effect : SessionUnit → SessionUnit}
    (admitted : (u.sessions.get r.port).gate r.body = none → u.Asked now r (effect (u.hear now r.port))) :
    u.Asked now r (u.judge now r effect) := by
  unfold judge
  cases gate : (u.sessions.get r.port).gate r.body with
  | some st => exact .refused st
  | none => exact admitted gate

theorem exec_effect {c : Instr} {s t : State} (not_reset : c ≠ .reset) (not_high : c ≠ .resetFoundHigh)
    (not_end : c ≠ .resetEnd) (e : exec c s = .next t) : Effect s t := by
  cases c
  case reset => contradiction
  case resetFoundHigh => contradiction
  case resetEnd => contradiction
  all_goals
    dsimp only [exec] at e
    refine State.running_elim (s := s) (P := Effect s) e .still ?_
  case sampleFrame levels =>
    split
    · exact .frameTaken levels ‹_›
    · exact .still
  case sfrmRises => exact .frameOpens
  case staleTimerExpiry =>
    split
    · exact .still
    · exact State.expireAt_elim .still fun may => .staleExpires _ ‹_› may
  case pulseEnd l =>
    split
    · exact State.expireAt_elim .still fun may => .pulseEnds l _ _ ‹_› may
    all_goals exact .still
  case sessionTimerExpiry p =>
    split
    · exact State.expireAt_elim .still fun may => .sessionExpires p _ ‹_› may
    · exact .still
  case openAtSi | closeAtSi | readHealth | ackHealth | readCounters =>
    split
    · exact .intakeAsked _ _ ⟨rfl, rfl, rfl, rfl⟩
    · exact .still
  case countersClear =>
    split
    · exact .intakeCleared _ _ ⟨rfl, rfl, rfl, rfl⟩
    · exact .still
  case countersAtLoop =>
    split
    · exact .loopActs _ s.cu.toTl s.su.toTl _ (.answered ..)
    · exact .loopActs _ s.cu.toTl s.su.toTl _ (.cleared ..)
    · exact .still
  case frameMessage =>
    split
    · exact .loopActs _ s.cu.toTl s.su.toTl _ (.frame ..)
    · exact .still
  case staleMessage =>
    split
    · exact .loopActs _ s.cu.toTl s.su.toTl _ .stale
    · exact .still
  case start =>
    split
    · exact .loopActs s.si.toTl _ s.su.toTl _ (.start ..)
    · exact .still
  case halt =>
    split
    · exact .loopActs s.si.toTl _ s.su.toTl _ (.halt ..)
    · exact .still
  case relock =>
    split
    · exact .loopActs s.si.toTl _ s.su.toTl _ (.relock ..)
    · exact .still
  case readAngle | readLoop =>
    split
    · exact .loopActs s.si.toTl s.cu.toTl _ _ (.answered ..)
    · exact .still
  case stepReport =>
    split
    · exact .stepReported ..
    · exact .still
  case book =>
    split
    · exact .tableAsked _ _ _ ‹_› (.book _ _ fun _ passed => bookArgs_remaining passed)
    · exact .still
  case amend =>
    split
    · exact .tableAsked _ _ _ ‹_› (.amend _ _ _ _ fun _ passed => amendArgs_remaining passed)
    · exact .still
  case cancel =>
    split
    · exact .tableAsked _ _ _ ‹_› (.cancel ..)
    · exact .still
  case suspend =>
    split
    · exact .tableAsked _ _ _ ‹_› (.suspend ..)
    · exact .still
  case resume =>
    split
    · exact .tableAsked _ _ _ ‹_› (.resume ..)
    · exact .still
  case readEntry =>
    split
    · exact .tableAsked _ _ _ ‹_› (.readEntry ..)
    · exact .still
  case listOwn =>
    split
    · exact .tableAsked _ _ _ ‹_› (.listOwn ..)
    · exact .still
  case purgeAtTt =>
    split
    · exact .tablePurged _ _ ‹_›
    · exact .still
  case releaseMessage =>
    split
    · exact .tableReleased ..
    · exact .still
  case lineOwnerMessage =>
    split
    · exact .lineOwnerTold ..
    · exact .still
  case healthReport =>
    split
    · exact .noticeTold _ s.tl.toNu s.tt.toNu s.cu.toNu _ (.health _)
    · exact .still
  case loopReport =>
    split
    · exact .noticeTold s.si.toNu _ s.tt.toNu s.cu.toNu _ (.loop ..)
    · exact .still
  case overspeedReport =>
    split
    · exact .noticeTold s.si.toNu _ s.tt.toNu s.cu.toNu _ (.overspeed ..)
    · exact .still
  case fireReport =>
    split
    · exact .noticeTold s.si.toNu s.tl.toNu _ s.cu.toNu _ (.fire _)
    · exact .still
  case dropMessage =>
    split
    · exact .noticeTold s.si.toNu s.tl.toNu _ s.cu.toNu _ (.drop ..)
    · exact .still
  case leaseReport =>
    split
    · exact .noticeTold s.si.toNu s.tl.toNu s.tt.toNu _ _ (.lease ..)
    · exact .still
  case activationReport =>
    split
    · exact .noticeTold s.si.toNu s.tl.toNu s.tt.toNu _ _ (.activation _)
    · exact .still
  case purgeMark =>
    split
    · exact .noticeMarked ..
    · exact .still
  case openAtNu =>
    split
    · exact .noticeOpened _ _ _ ‹_›
    · exact .still
  case closeAtNu =>
    split
    · exact .noticeClosed _ _ ‹_›
    · exact .still
  case noticePop =>
    split
    · exact .noticePopped _ _ ‹_›
    · exact .still
  case lineClaim =>
    split
    · exact .linesAsked _ _ _ ‹_› (.claim ..)
    · exact .still
  case lineRelease =>
    split
    · exact .linesAsked _ _ _ ‹_› (.release ..)
    · exact .still
  case linePulse =>
    split
    · exact .linesAsked _ _ _ ‹_› (.pulse ..)
    · exact .still
  case lineStatus =>
    split
    · exact .linesAsked _ _ _ ‹_› (.status ..)
    · exact .still
  case releaseAll =>
    split
    · exact .linesReleased _ _ ‹_›
    · exact .still
  case pulseRequest =>
    split
    · exact .linesTold _ _ (.pulse ..)
    · exact .still
  case referenceAdded =>
    split
    · exact .linesTold _ _ (.added ..)
    · exact .still
  case referenceRemoved =>
    split
    · exact .linesTold _ _ (.removed ..)
    · exact .still
  case referencesPurged =>
    split
    · exact .referencesPurged ..
    · exact .still
  case forwardRequest p =>
    split
    · rename_i r rest _
      split
      · exact .still
      · rename_i other
        exact .sessionAsked p r rest _ (SessionUnit.judge_asked fun admitted =>
          .forwarded admitted fun owner => other ⟨owner, by rw [admitted]; rfl⟩)
    · exact .still
  case join p =>
    split
    · exact .sessionAsked p _ _ _ (SessionUnit.judge_asked fun admitted => .joined _ _ rfl admitted)
    · exact .still
  case leave p =>
    split
    · exact .sessionAsked p _ _ _ (SessionUnit.judge_asked fun admitted => .left rfl admitted)
    · exact .still
  case ping p | nop p | hostStatus p =>
    split
    · exact .sessionAsked p _ _ _ (SessionUnit.judge_asked fun _ => .answered _)
    · exact .still
  case doneReport block =>
    cases block with
    | tl | su => exact .still
    | si =>
      dsimp only
      split
      · exact .doneAtSi _ _ ‹_›
      · exact .still
    | tt =>
      dsimp only
      split
      · exact .doneAtTt _ _ ‹_›
      · exact .still
    | nu =>
      dsimp only
      split
      · exact .doneAtNu _ _ ‹_›
      · exact .still
    | lu =>
      dsimp only
      split
      · exact .doneAtLu _ _ ‹_›
      · exact .still
    | cu =>
      dsimp only
      split
      · exact .doneAtCu _ _ ‹_›
      · exact .still
  case leaseTake =>
    split
    · exact .leaseAsked _ _ _ ‹_› (.take ..)
    · exact .still
  case leaseDrop =>
    split
    · exact .leaseAsked _ _ _ ‹_› (.drop ..)
    · exact .still
  case leaseCancel =>
    split
    · exact .leaseAsked _ _ _ ‹_› (.cancel ..)
    · exact .still
  case paramWrite =>
    split
    · exact .leaseAsked _ _ _ ‹_› (.write ..)
    · exact .still
  case paramCopy =>
    split
    · exact .leaseAsked _ _ _ ‹_› (.copy ..)
    · exact .still
  case paramRead =>
    split
    · exact .leaseAsked _ _ _ ‹_› (.read ..)
    · exact .still
  case activate =>
    split
    · exact .leaseAsked _ _ _ ‹_› (.activate ..)
    · exact .still
  case leaseGatedForward =>
    split
    · split
      · exact .leaseAsked _ _ _ ‹_› (.forward ..)
      · exact .still
    · exact .still
  case purgeAtCu =>
    split
    · exact .leasePurged _ _ ‹_›
    · exact .still
  case stateMessage =>
    split
    · exact .loopStateTold ..
    · exact .still
  case boundaryMessage =>
    split
    · exact .boundaryTold _
    · exact .still
  case csFalls p => exact .portFalls p
  case csRises p levels =>
    dsimp only
    split
    · exact .portRises p levels _ ‹_›
    · exact .still
  case responseWrite block p =>
    cases block <;> dsimp only <;> split <;> first
      | exact .still
      | exact .portTold p _ _ _ _ _ _ _ _ rfl rfl
  case epochMessage p | queueLengthMessage p =>
    split
    · exact .portTold p _ _ _ _ _ _ _ _ rfl rfl
    · exact .still

/-! ## Every step -/

/-- A property of the blocks is kept by every step when the reset values meet it, the timebase, the place in a reset, the
queue and the stale timer do not matter to it, and every effect keeps it. -/
theorem step_keeps {P : State → Prop} (reset : ∀ now queue, P (State.resetValues none now .low queue))
    (clock : ∀ (s : State) now phase queue timer, P s →
      P { s with now := now, phase := phase, pending := queue, si := { s.si with staleTimer := timer } })
    (effect : ∀ s t, Effect s t → P s → P t) {s s' : State} (start : P s) (e : step s = .next s') : P s' := by
  have command {c : Instr} {s t : State} (hs : P s) (e : exec c s = .next t) : P t := by
    by_cases not_reset : c = .reset
    · subst not_reset; cases e; exact reset _ _
    by_cases not_high : c = .resetFoundHigh
    · subst not_high; cases e
      split
      · exact clock s _ _ _ _ hs
      · exact hs
      · exact hs
    by_cases not_end : c = .resetEnd
    · subst not_end; cases e
      split
      · exact clock s _ _ _ _ hs
      · exact hs
      · exact hs
    exact effect s t (exec_effect not_reset not_high not_end e) hs
  have ticked : P s.tick := clock s _ _ _ _ start
  unfold step at e
  split at e
  · exact command (clock s _ _ _ _ start) e
  · unfold idle at e
    split at e
    · cases e; exact start
    · split at e
      · exact command (c := .resetEnd) start e
      · cases e; exact ticked
    · split at e
      · exact command (c := .staleTimerExpiry) start e
      · exact command (c := .sessionTimerExpiry _) start e
      · exact command (c := .pulseEnd _) start e
      · cases e; exact ticked

end Sys2Proof.Machine
end

section
/-! The banks and the lease (R162 to R179): each operation of CU keeps them sound. -/

namespace Sys2Proof.Machine

/-! ## One field of a bank written (R170, R171) -/

theorem Bank.field_setField_self (b : Bank) {f : FieldId} {v : Int} (ranged : f.inRange v = true) :
    (b.setField f v).field f = v := by
  cases f <;> simp [FieldId.inRange] at ranged <;> simp [setField, field, PerPort.set] <;> omega

theorem Bank.field_setField_other (b : Bank) {f g : FieldId} (v : Int) (other : g ≠ f) :
    (b.setField f v).field g = b.field g := by
  cases f <;> cases g <;> first | rfl | contradiction

theorem Bank.fit_setField {b : Bank} (fit : b.fit) {f : FieldId} {v : Int} (ranged : f.inRange v = true) :
    (b.setField f v).fit := by
  intro g
  by_cases same : g = f
  · rw [same, Bank.field_setField_self b ranged]
    exact ranged
  · rw [Bank.field_setField_other b v same]
    exact fit g

namespace ConfigUnit

/-! ## Sound banks and a sound lease -/

/-- The banks, their index and the pending flag stand as before. -/
structure SameBanks (c c' : ConfigUnit) : Prop where
  bank0 : c'.bank0 = c.bank0
  bank1 : c'.bank1 = c.bank1
  activeIndex : c'.activeIndex = c.activeIndex
  activationPending : c'.activationPending = c.activationPending

theorem activeBank_congr {c c' : ConfigUnit} (same : c.SameBanks c') : c'.activeBank = c.activeBank := by
  simp only [activeBank, same.bank0, same.bank1, same.activeIndex]

theorem standbyBank_congr {c c' : ConfigUnit} (same : c.SameBanks c') : c'.standbyBank = c.standbyBank := by
  simp only [standbyBank, same.bank0, same.bank1, same.activeIndex]

/-- With the banks as before, the lease alone has to be looked at. -/
theorem Sound.of_lease {c c' : ConfigUnit} (sound : c.Sound) (same : c.SameBanks c')
    (holder : ∀ p, c'.holder = some p → p ∉ c'.waiting) (once : c'.waiting.Nodup)
    (free : c'.holder = none → c'.waiting = []) : c'.Sound where
  fit0 := same.bank0 ▸ sound.fit0
  fit1 := same.bank1 ▸ sound.fit1
  active := activeBank_congr same ▸ sound.active
  standby pending := standbyBank_congr same ▸ sound.standby (same.activationPending ▸ pending)
  holder := holder
  once := once
  free := free

/-- With the banks and the lease as before, CU stays sound. -/
theorem Sound.congr {c c' : ConfigUnit} (sound : c.Sound) (same : c.SameBanks c') (holder : c'.holder = c.holder)
    (waiting : c'.waiting = c.waiting) : c'.Sound :=
  sound.of_lease same (by rw [holder, waiting]; exact sound.holder) (waiting ▸ sound.once)
    (by rw [holder, waiting]; exact sound.free)

theorem Sound.answer {c : ConfigUnit} (sound : c.Sound) (p : Port) (tag : Byte) (st : Status) (payload : List Byte) :
    (c.answer p tag st payload).Sound :=
  sound.congr ⟨rfl, rfl, rfl, rfl⟩ rfl rfl

theorem standbyBank_fit {c : ConfigUnit} (sound : c.Sound) : c.standbyBank.fit := by
  unfold standbyBank
  cases c.activeIndex
  · exact sound.fit1
  · exact sound.fit0

theorem activeBank_fit {c : ConfigUnit} (sound : c.Sound) : c.activeBank.fit := by
  unfold activeBank
  cases c.activeIndex
  · exact sound.fit0
  · exact sound.fit1

/-! ## The lease (R163 to R167) -/

theorem Sound.handOn {c : ConfigUnit} (sound : c.Sound) : c.handOn.Sound := by
  rw [handOn_eq]
  have once := sound.once
  refine sound.of_lease ⟨rfl, rfl, rfl, rfl⟩ (fun p => ?_) (once.sublist (List.tail_sublist _)) (fun none => ?_)
  · cases waiting : c.waiting with
    | nil => simp
    | cons q rest =>
      rw [waiting] at once
      rintro ⟨⟩
      exact (List.nodup_cons.mp once).1
  · cases waiting : c.waiting with
    | nil => rfl
    | cons q rest => simp [waiting] at none

/-- A port taken off the wait list. -/
theorem Sound.unwait {c : ConfigUnit} (sound : c.Sound) (p : Port) :
    { c with waiting := c.waiting.filter (· ≠ p) }.Sound :=
  sound.of_lease ⟨rfl, rfl, rfl, rfl⟩ (fun q held waits => sound.holder q held (List.mem_of_mem_filter waits))
    (sound.once.filter _) (fun none => by simp [sound.free none])

theorem Sound.leaseTake {c : ConfigUnit} (sound : c.Sound) (p : Port) (tag wait : Byte) :
    (c.leaseTake p tag wait).Sound := by
  unfold ConfigUnit.leaseTake
  split
  · exact sound.answer ..
  split
  next free =>
    have nobody := sound.free free
    have taken : (c.setHolder (some p) false).Sound :=
      sound.of_lease ⟨rfl, rfl, rfl, rfl⟩ (by simp [setHolder, nobody]) sound.once (by simp [setHolder])
    exact taken.answer ..
  next h held =>
    split
    · exact sound.answer ..
    split
    · exact sound.answer ..
    split
    next =>
      rename_i other absent _
      have waits : { c with waiting := c.waiting ++ [p] }.Sound := by
        refine sound.of_lease ⟨rfl, rfl, rfl, rfl⟩ (fun q holds => ?_) ?_ (by simp [held])
        · obtain rfl : q = h := Option.some.inj (holds.symm.trans held)
          simpa using ⟨sound.holder q held, other⟩
        · simpa [List.nodup_append] using ⟨sound.once, fun q mem same => absent (same ▸ mem)⟩
      exact waits.answer ..
    · exact sound.answer ..

theorem Sound.leaseDrop {c : ConfigUnit} (sound : c.Sound) (p : Port) (tag : Byte) : (c.leaseDrop p tag).Sound := by
  unfold ConfigUnit.leaseDrop
  split
  · exact sound.handOn.answer ..
  · exact sound.answer ..

theorem Sound.leaseCancel {c : ConfigUnit} (sound : c.Sound) (p : Port) (tag : Byte) :
    (c.leaseCancel p tag).Sound := by
  unfold ConfigUnit.leaseCancel
  split
  · exact (sound.unwait p).answer ..
  · exact sound.answer ..

theorem Sound.purge {c : ConfigUnit} (sound : c.Sound) (p : Port) : (c.purge p).Sound := by
  unfold ConfigUnit.purge
  split
  · exact (sound.handOn.unwait p).congr ⟨rfl, rfl, rfl, rfl⟩ rfl rfl
  · exact (sound.unwait p).congr ⟨rfl, rfl, rfl, rfl⟩ rfl rfl

/-! ## The banks (R171 to R177) -/

/-- The standby bank replaced by one in range, while no activation is pending. -/
theorem Sound.setStandby {c : ConfigUnit} (sound : c.Sound) {b : Bank} (fit : b.fit)
    (not_pending : c.activationPending = false) : (c.setStandby b).Sound := by
  have active := sound.active
  unfold ConfigUnit.setStandby
  cases index : c.activeIndex <;> simp only [activeBank, index] at active
  · exact ⟨sound.fit0, fit, by simpa only [activeBank, index], by simp [not_pending], sound.holder, sound.once,
      sound.free⟩
  · exact ⟨fit, sound.fit1, by simpa only [activeBank, index], by simp [not_pending], sound.holder, sound.once,
      sound.free⟩

/-- A swap makes a checked standby bank the active one. -/
theorem Sound.swap {c : ConfigUnit} (sound : c.Sound) (checked : c.standbyBank.crossFailure = none) : c.swap.Sound where
  fit0 := sound.fit0
  fit1 := sound.fit1
  active := by rw [activeBank_swap]; exact checked
  standby := by simp [ConfigUnit.swap]
  holder := sound.holder
  once := sound.once
  free := sound.free

theorem Sound.paramWrite {c : ConfigUnit} (sound : c.Sound) (p : Port) (tag field : Byte) (value : Word) :
    (c.paramWrite p tag field value).Sound := by
  unfold ConfigUnit.paramWrite
  split
  · exact sound.answer ..
  next idle =>
    split
    · exact sound.answer ..
    split
    next ranged =>
      exact (sound.setStandby (Bank.fit_setField (standbyBank_fit sound) ranged)
        (Bool.eq_false_iff.mpr idle)).answer ..
    · exact sound.answer ..

theorem Sound.paramCopy {c : ConfigUnit} (sound : c.Sound) (p : Port) (tag : Byte) : (c.paramCopy p tag).Sound := by
  unfold ConfigUnit.paramCopy
  split
  · exact sound.answer ..
  next idle => exact (sound.setStandby (activeBank_fit sound) (Bool.eq_false_iff.mpr idle)).answer ..

theorem Sound.paramRead {c : ConfigUnit} (sound : c.Sound) (p : Port) (tag selector field : Byte) :
    (c.paramRead p tag selector field).Sound := by
  unfold ConfigUnit.paramRead
  repeat' split
  all_goals exact sound.answer ..

theorem Sound.activate {c : ConfigUnit} (sound : c.Sound) (p : Port) (tag : Byte) : (c.activate p tag).Sound := by
  unfold ConfigUnit.activate
  split
  · exact sound.answer ..
  split
  · exact sound.answer ..
  next checked =>
    split
    · exact (sound.swap checked).answer ..
    · have pending : { c with activationPending := true }.Sound :=
        ⟨sound.fit0, sound.fit1, sound.active, fun _ => checked, sound.holder, sound.once, sound.free⟩
      exact pending.answer ..

theorem Sound.takeState {c : ConfigUnit} (sound : c.Sound) (new : LoopState) : (c.takeState new).Sound := by
  cases new <;> exact sound.congr ⟨rfl, rfl, rfl, rfl⟩ rfl rfl

theorem Sound.takeBoundary {c : ConfigUnit} (sound : c.Sound) : c.takeBoundary.Sound := by
  unfold ConfigUnit.takeBoundary
  split
  next pending => exact sound.swap (sound.standby pending)
  · exact sound

theorem Sound.forwardGated {c : ConfigUnit} (sound : c.Sound) (r : Request) : (c.forwardGated r).Sound := by
  unfold ConfigUnit.forwardGated
  split <;> exact sound.congr ⟨rfl, rfl, rfl, rfl⟩ rfl rfl

theorem Sound.gated {c : ConfigUnit} (sound : c.Sound) {p : Port} {tag : Byte} {effect : ConfigUnit → ConfigUnit}
    (admitted : (effect c).Sound) : (c.gated p tag effect).Sound := by
  unfold ConfigUnit.gated
  split
  · exact admitted
  · exact sound.answer ..

theorem Sound.asked {c c' : ConfigUnit} (sound : c.Sound) {p : Port} (asked : c.Asked p c') : c'.Sound := by
  cases asked with
  | take tag wait => exact sound.leaseTake ..
  | drop tag => exact sound.leaseDrop ..
  | cancel tag => exact sound.leaseCancel ..
  | write tag field value => exact sound.gated (sound.paramWrite ..)
  | copy tag => exact sound.gated (sound.paramCopy ..)
  | read tag selector field => exact sound.paramRead ..
  | activate tag => exact sound.gated (sound.activate ..)
  | forward tag r => exact sound.gated (sound.forwardGated r)

theorem reset_sound : ConfigUnit.reset.Sound where
  fit0 := by unfold Bank.fit; intro f; cases f <;> rfl
  fit1 := by unfold Bank.fit; intro f; cases f <;> rfl
  active := by decide
  standby := by decide
  holder := by simp [ConfigUnit.reset]
  once := List.nodup_nil
  free _ := rfl

end ConfigUnit

/-! ## Every step -/

/-- CU is changed by its own requests and messages alone; what is taken off its paths is not of its record. -/
theorem Effect.keeps_cu_sound {s t : State} (effect : Effect s t) (sound : s.cu.Sound) : t.cu.Sound := by
  cases effect
  case leaseAsked asked => exact sound.asked asked
  case leasePurged => exact sound.purge _
  case loopStateTold => exact sound.takeState _
  case boundaryTold => exact sound.takeBoundary
  case intakeCleared | loopActs | noticeTold | doneAtCu | portTold =>
    exact sound.congr ⟨rfl, rfl, rfl, rfl⟩ rfl rfl
  all_goals exact sound

/-- Settles O54: every effect keeps CU sound, and reset makes it sound. -/
theorem banksAndLeaseStaySound : Obligations.BanksAndLeaseStaySound := by
  intro s s'
  exact step_keeps (P := fun s => s.cu.Sound) (fun _ _ => ConfigUnit.reset_sound) (fun _ _ _ _ _ sound => sound)
    (fun _ _ effect sound => effect.keeps_cu_sound sound)

end Sys2Proof.Machine
end

section
/-! The bounds of the loop record (R32, R34, R46, R57, R58, R63): each operation of the Tracking Loop keeps them, under a
bank whose fields are in range. -/

namespace Sys2Proof.Machine

/-! ## The bank in use -/

/-- The bounds of R170 that the loop rests on. -/
theorem Bank.loop_bounds {b : Bank} (fit : b.fit) : b.window ≤ 128 ∧ b.lw ≤ 8 ∧ b.vmax ≤ 8191 := by
  have window := fit .window
  have lw := fit .lw
  have vmax := fit .vmax
  simp [FieldId.inRange, Bank.field] at window lw vmax
  omega

/-! ## One operation at a time -/

namespace LoopRecord

/-- The velocity, the window and the lock run decide; in LOST the velocity has to be 0. -/
theorem Sound.of_same {l l' : LoopRecord} (sound : l.Sound)
    (window : (l'.nPlus, l'.nMinus, l'.position, l'.lockRun) = (l.nPlus, l.nMinus, l.position, l.lockRun))
    (velocity : l'.velocity = l.velocity) (state : l'.state = l.state) : l'.Sound := by
  obtain ⟨plus, minus, position, lockRun⟩ : l'.nPlus = l.nPlus ∧ l'.nMinus = l.nMinus ∧ l'.position = l.position ∧
      l'.lockRun = l.lockRun := by simpa only [Prod.mk.injEq] using window
  exact ⟨by rw [plus, minus, position]; exact sound.signs, by rw [position]; exact sound.position,
    by rw [lockRun]; exact sound.lockRun, by rw [velocity]; exact sound.velocity,
    by rw [state, velocity]; exact sound.lost⟩

theorem Sound.enter {l : LoopRecord} (sound : l.Sound) (b : Bank) (new : LoopState) (cause : LoopCause) :
    (TrackingLoop.enter b new cause l).Sound := by
  obtain ⟨signs, position, lockRun, velocity, lost⟩ := sound
  cases new <;> unfold TrackingLoop.enter
  case acquire =>
    refine ⟨by simp, by simp, by simp, ?_, by simp⟩
    dsimp only
    split <;> omega
  case lost => exact ⟨signs, position, lockRun, by simp, by simp⟩
  case track => exact ⟨by simp, by simp, by simp, velocity, by simp⟩
  all_goals exact ⟨signs, position, lockRun, velocity, by simp⟩

end LoopRecord

namespace TrackingLoop

/-- The loop record keeps its bounds and is not in LOST. -/
def Moving (t : TrackingLoop) : Prop := t.loop.Sound ∧ t.loop.state ≠ .lost

theorem transition_sound {t : TrackingLoop} (sound : t.loop.Sound) (b : Bank) (new : LoopState) (cause : LoopCause)
    (stamp : Word) : (t.transition b new cause stamp).loop.Sound :=
  sound.enter b new cause

theorem transition_moving {t : TrackingLoop} (sound : t.loop.Sound) (b : Bank) {new : LoopState} (cause : LoopCause)
    (stamp : Word) (moves : new ≠ .lost) : (t.transition b new cause stamp).Moving := by
  refine ⟨transition_sound sound b new cause stamp, ?_⟩
  rw [(transition_keeps b new cause stamp t).1]
  exact moves

/-- The velocity check limits the velocity to vmax × 256, which no bank sets above 8191 × 256 (R34). -/
theorem checkVelocity_moving {t : TrackingLoop} {b : Bank} (moving : t.Moving) (vmax : b.vmax ≤ 8191) (stamp : Word)
    (v : Int) : (t.checkVelocity b stamp v).Moving := by
  obtain ⟨sound, state⟩ := moving
  rw [checkVelocity_eq]
  refine ⟨⟨sound.signs, sound.position, sound.lockRun, ?_, fun lost => absurd lost state⟩, state⟩
  dsimp only
  omega

/-- The judgement of an ended window: its counts are 0, and the lock run stays below Lw or is cleared (R61, R63, R64). -/
theorem judgeWindow_moving {t : TrackingLoop} {b : Bank} (moving : t.Moving) (lw : b.lw ≤ 8) (madeIn : LoopState)
    (i : Nat) (stamp : Word) : (t.judgeWindow b madeIn i stamp).Moving := by
  have ⟨⟨signs, position, lockRun, velocity, lost⟩, state⟩ := moving
  unfold judgeWindow
  split
  · exact ⟨⟨signs, position, lockRun, velocity, lost⟩, state⟩
  · split
    · dsimp only
      split
      · have entered : ({ t.loop with lockRun := 0 } : LoopRecord).Sound := ⟨signs, position, by simp, velocity, lost⟩
        have locked : enter b .track .locked { t.loop with lockRun := t.loop.lockRun + 1 } =
            enter b .track .locked { t.loop with lockRun := 0 } := rfl
        refine ⟨?_, by simp [transition, enter]⟩
        unfold transition
        dsimp only
        rw [locked]
        exact entered.enter b .track .locked
      · exact ⟨⟨signs, position, by dsimp only; omega, velocity, lost⟩, state⟩
    · exact ⟨⟨signs, position, by simp, velocity, lost⟩, state⟩
  all_goals exact moving

/-- A counted step: below W the position stays below 128, and at W the window is ended (R57, R58). -/
theorem window_moving {t : TrackingLoop} {b : Bank} (moving : t.Moving) (fit : b.fit) (madeIn : LoopState) (s : Sign)
    (stamp : Word) : (t.window b madeIn s stamp).Moving := by
  obtain ⟨wide, lw, -⟩ := Bank.loop_bounds fit
  have ⟨⟨signs, position, lockRun, velocity, lost⟩, state⟩ := moving
  unfold window
  dsimp only
  split
  · have ended : { t with
        loop := { countStep s t.loop with nPlus := 0, nMinus := 0, position := 0 }
        toCu := t.toCu ++ [TlCuMsg.boundary] }.Moving :=
      ⟨⟨Nat.le_refl 0, Nat.zero_lt_succ _, lockRun, velocity, lost⟩, state⟩
    exact judgeWindow_moving ended lw ..
  · rename_i inside
    simp only [countStep] at inside
    refine ⟨⟨?_, ?_, lockRun, velocity, lost⟩, state⟩
    · simp only [countStep]
      cases s <;> simp <;> omega
    · simp only [countStep]
      omega

theorem correct_moving {t : TrackingLoop} {b : Bank} (moving : t.Moving) (fit : b.fit) (k : BitVec 4) (s : Sign)
    (stamp : Word) : (t.correct b k s stamp).Moving := by
  obtain ⟨sound, state⟩ := checkVelocity_moving moving (Bank.loop_bounds fit).2.2 stamp
    (t.loop.velocity + s.toInt * gainKi (t.loop.effectiveStep b))
  exact ⟨sound.of_same rfl rfl rfl, state⟩

theorem report_moving {t : TrackingLoop} (moving : t.Moving) (st : StepState) (old : BitVec 24) (d : Int)
    (stamp : Word) : (t.report st old d stamp).Moving :=
  ⟨moving.1.of_same rfl rfl rfl, moving.2⟩

theorem step_sound {t : TrackingLoop} {b : Bank} (moving : t.Moving) (fit : b.fit) (k : BitVec 4) (sine cosine : Int)
    (stamp : Word) : (t.step b k sine cosine stamp).loop.Sound := by
  unfold step
  dsimp only
  have corrected := correct_moving moving fit k (errorSign sine cosine (angleOf (t.loop.predicted k))) stamp
  split
  · have counted := window_moving (report_moving corrected .track t.loop.acc
      (t.loop.displacement b k (errorSign sine cosine (angleOf (t.loop.predicted k)))) stamp) fit .track
      (errorSign sine cosine (angleOf (t.loop.predicted k))) stamp
    split
    · exact transition_sound counted.1 ..
    · exact counted.1
  all_goals exact (window_moving corrected fit .acquire _ stamp).1

theorem coastStep_sound {t : TrackingLoop} {b : Bank} (moving : t.Moving) (fit : b.fit) (k : BitVec 4) (stamp : Word) :
    (t.coastStep b k stamp).loop.Sound := by
  have checked := checkVelocity_moving moving (Bank.loop_bounds fit).2.2 stamp t.loop.velocity
  have carried : (t.extrapolate b k stamp).Moving := ⟨checked.1.of_same rfl rfl rfl, checked.2⟩
  have reported := (report_moving carried .coast t.loop.acc ((t.extrapolate b k stamp).loop.sweep k) stamp).1
  unfold coastStep
  dsimp only
  split
  · exact transition_sound reported ..
  split
  · exact transition_sound reported ..
  · exact reported

/-! ## Messages and requests -/

theorem takeFrame_sound {t : TrackingLoop} {b : Bank} (sound : t.loop.Sound) (fit : b.fit) (k : BitVec 4)
    (sine cosine : Int) (usable : Bool) (stamp : Word) :
    (t.takeFrame b k sine cosine usable stamp).loop.Sound := by
  have noted : (t.note usable stamp).loop.Sound := sound.of_same rfl rfl rfl
  unfold takeFrame takeNoted
  split
  case h_1 => exact noted
  case h_2 state => exact step_sound ⟨noted, by rw [state]; simp⟩ fit ..
  case h_3 => exact transition_sound noted ..
  case h_4 state => exact step_sound ⟨noted, by rw [state]; simp⟩ fit ..
  case h_5 => exact coastStep_sound (transition_moving noted b _ stamp (by simp)) fit ..
  case h_6 => exact step_sound (transition_moving noted b _ stamp (by split <;> simp)) fit ..
  case h_7 state => exact coastStep_sound ⟨noted, by rw [state]; simp⟩ fit ..
  case h_8 => exact step_sound (transition_moving noted b _ stamp (by simp)) fit ..
  case h_9 => exact noted

theorem takeStale_sound {t : TrackingLoop} (sound : t.loop.Sound) (b : Bank) : (t.takeStale b).loop.Sound := by
  have noted : (t.note false t.loop.stamp).loop.Sound := sound.of_same rfl rfl rfl
  unfold takeStale
  dsimp only
  split
  iterate 3 exact transition_sound noted ..
  all_goals exact noted

theorem Act.loop_sound {b : Bank} {t t' : TrackingLoop} (act : t.Act b t') (sound : t.loop.Sound) (fit : b.fit) :
    t'.loop.Sound := by
  cases act with
  | frame => exact takeFrame_sound sound fit ..
  | stale => exact takeStale_sound sound b
  | cleared => exact sound.of_same rfl rfl rfl
  | answered => exact sound
  | start =>
    unfold TrackingLoop.start
    split
    · exact transition_sound sound b _ _ t.loop.stamp
    all_goals exact sound
  | halt =>
    unfold TrackingLoop.halt
    split
    · exact sound
    all_goals exact transition_sound sound b .halted .halt t.loop.stamp
  | relock =>
    unfold TrackingLoop.relock
    split
    iterate 2 exact transition_sound sound b .acquire .relock t.loop.stamp
    all_goals exact sound

theorem reset_sound : TrackingLoop.reset.loop.Sound := by
  constructor <;> decide

end TrackingLoop

/-! ## Every step -/

theorem Effect.keeps_loop_sound {s t : State} (effect : Effect s t) (banks : s.cu.Sound) (sound : s.tl.loop.Sound) :
    t.tl.loop.Sound := by
  cases effect
  case loopActs act => exact act.loop_sound sound (ConfigUnit.activeBank_fit banks)
  all_goals exact sound

/-- Settles O55: the banks and the loop record are kept sound together. -/
theorem loopRecordStaysSound : Obligations.LoopRecordStaysSound := by
  intro s s' banks sound next
  exact (step_keeps (P := fun s => s.cu.Sound ∧ s.tl.loop.Sound)
    (fun _ _ => ⟨ConfigUnit.reset_sound, TrackingLoop.reset_sound⟩) (fun _ _ _ _ _ sound => sound)
    (fun _ _ effect sound => ⟨effect.keeps_cu_sound sound.1, effect.keeps_loop_sound sound.1 sound.2⟩)
    ⟨banks, sound⟩ next).2

end Sys2Proof.Machine
end

section
/-! The notice queues (R113, R115, R116, R129, R130): each operation of NU keeps every port record sound. -/

namespace Sys2Proof.Machine

/-! ## The owed list in index order (R113, R117) -/

theorem owe_ordered (report : Fired) {l : List Fired} (ordered : l.Pairwise (fun a b => a.index < b.index)) :
    (owe report l).Pairwise (fun a b => a.index < b.index) := by
  induction l with
  | nil => simp [owe]
  | cons item rest ih =>
    have ⟨above, tail⟩ := List.pairwise_cons.mp ordered
    unfold owe
    split
    next before =>
      refine List.pairwise_cons.mpr ⟨fun x mem => ?_, ordered⟩
      rcases List.mem_cons.mp mem with rfl | mem
      · exact before
      · exact before.trans (above x mem)
    next =>
      split
      next same =>
        rw [List.pairwise_cons, Fired.merge_index item report same.symm, same]
        exact ⟨above, tail⟩
      next not_before other =>
        refine List.pairwise_cons.mpr ⟨fun x mem => ?_, ih tail⟩
        rcases mem_owe mem with same | mem
        · rw [same]
          exact lt_of_le_of_ne (not_lt.mp not_before) (Ne.symm other)
        · exact above x mem

namespace NoticePort

/-! ## One port record -/

/-- What a record needs before its attention line is set: every condition of `Sound` but the last. -/
structure Settled (r : NoticePort) : Prop where
  bound : r.queue.length ≤ 16
  order : r.owed.Pairwise (fun a b => a.index < b.index)
  full : (r.owed ≠ [] ∨ r.summaryOwed = true) → r.queue.length = 16
  numbers : ∀ i (h : i < r.queue.length), r.queue[i].seq + BitVec.ofNat 8 (r.queue.length - i) = r.seq
  closed : r.opened = false → r.queue = [] ∧ r.owed = [] ∧ r.summaryOwed = false ∧ r.subs = Subscriptions.none

/-- The attention line of a settled record follows its queue (R130). -/
theorem Settled.attentive {r : NoticePort} (settled : r.Settled) : { r with atnLow := !r.queue.isEmpty }.Sound :=
  ⟨settled.bound, settled.order, settled.full, settled.numbers, settled.closed, by
    cases r.queue <;> simp⟩

/-- A notice posted to an open port takes the next sequence number; something may stay owed if the queue is then full. -/
theorem post_settled {r : NoticePort} (n : Notice) (room : r.queue.length < 16)
    (order : r.owed.Pairwise (fun a b => a.index < b.index))
    (full : (r.owed ≠ [] ∨ r.summaryOwed = true) → r.queue.length = 15)
    (numbers : ∀ i (h : i < r.queue.length), r.queue[i].seq + BitVec.ofNat 8 (r.queue.length - i) = r.seq)
    (opened : r.opened = true) : (r.post n).Settled where
  bound := by simp [post]; omega
  order := order
  full owes := by simp [post, full owes]
  numbers i h := by
    simp only [post, List.length_append, List.length_singleton] at h ⊢
    rcases Nat.lt_or_ge i r.queue.length with inside | last
    · rw [List.getElem_append_left inside, ← numbers i inside, show r.queue.length + 1 - i = r.queue.length - i + 1 by omega,
        BitVec.ofNat_add, ← BitVec.add_assoc]
      rfl
    · obtain rfl : i = r.queue.length := by omega
      simp
  closed shut := by simp [post, opened] at shut

/-- The numbers of a queue stay consecutive when its head is taken (R115, R124). -/
theorem numbers_tail {queue rest : List QueuedNotice} {head : QueuedNotice} {seq : Byte} (split : queue = head :: rest)
    (numbers : ∀ i (h : i < queue.length), queue[i].seq + BitVec.ofNat 8 (queue.length - i) = seq) (i : Nat)
    (h : i < rest.length) : rest[i].seq + BitVec.ofNat 8 (rest.length - i) = seq := by
  subst split
  have next := numbers (i + 1) (by simpa using h)
  simpa using next

end NoticePort

namespace NoticeUnit

/-! ## NU with one record replaced -/

theorem Sound.set {n n' : NoticeUnit} (sound : n.Sound) {p : Port} {r : NoticePort} (ports : n'.ports = n.ports.set p r)
    (new : r.Sound) : n'.Sound := by
  intro q
  rw [ports, PerPort.get_set]
  split
  · exact new
  · exact sound q

theorem Sound.withCopies {n : NoticeUnit} (sound : n.Sound) (c : NoticeCopies) : { n with copies := c }.Sound := sound

theorem Sound.commit {n : NoticeUnit} (sound : n.Sound) (p : Port) {r : NoticePort} (settled : r.Settled) :
    (n.commit p r).Sound :=
  sound.set rfl settled.attentive

theorem Sound.releaseIfFinal {n : NoticeUnit} (sound : n.Sound) (f : Fired) : (n.releaseIfFinal f).Sound := by
  rw [releaseIfFinal_eq]
  exact sound

/-! ## Reports (R117 to R123) -/

theorem Sound.post {n : NoticeUnit} (sound : n.Sound) (p : Port) (x : Notice) (opened : (n.ports.get p).opened = true)
    (room : (n.ports.get p).hasRoom = true) : (n.commit p ((n.ports.get p).post x)).Sound := by
  have port := sound p
  have few : (n.ports.get p).queue.length < 16 := of_decide_eq_true room
  exact sound.commit p (NoticePort.post_settled x few port.order (fun owes => absurd (port.full owes) (by omega))
    port.numbers opened)

theorem full_of_no_room {n : NoticeUnit} (sound : n.Sound) {p : Port} (no_room : ¬ (n.ports.get p).hasRoom = true) :
    (n.ports.get p).queue.length = 16 := by
  have bound := (sound p).bound
  have many : ¬ (n.ports.get p).queue.length < 16 := fun few => no_room (decide_eq_true few)
  omega

theorem Sound.giveTo {n : NoticeUnit} (sound : n.Sound) (p : Port) (x : Notice) : (n.giveTo p x).Sound := by
  have port := sound p
  unfold NoticeUnit.giveTo
  dsimp only
  split
  · exact sound
  next opened =>
    have opened : (n.ports.get p).opened = true := by simpa using opened
    split
    next room => exact sound.post p x opened room
    next no_room =>
      exact sound.set rfl ⟨port.bound, port.order, fun _ => full_of_no_room sound no_room, port.numbers,
        fun shut => absurd opened (by simp [show (n.ports.get p).opened = false from shut]), port.attention⟩

theorem Sound.giveSubscribed {n : NoticeUnit} (sound : n.Sound) (kind : Subscriptions → Bool) (x : Notice) :
    (n.giveSubscribed kind x).Sound := by
  unfold NoticeUnit.giveSubscribed
  generalize Port.inOrder = ports
  induction ports generalizing n with
  | nil => exact sound
  | cons p ports ih =>
    rw [List.foldl_cons]
    split
    · exact ih (sound.giveTo p x)
    · exact ih sound

theorem Sound.takeFire {n : NoticeUnit} (sound : n.Sound) (f : FireReport) : (n.takeFire f).Sound := by
  have port := sound f.port
  have stamped := sound.withCopies { n.copies with lastStamp := f.stamp }
  unfold NoticeUnit.takeFire
  dsimp only
  split
  · exact sound
  next opened =>
    have opened : (n.ports.get f.port).opened = true := by simpa using opened
    split
    next room => exact (stamped.post f.port _ opened room).releaseIfFinal _
    next no_room =>
      exact sound.set rfl ⟨port.bound, owe_ordered _ port.order, fun _ => full_of_no_room sound no_room, port.numbers,
        fun shut => absurd opened (by simp [show (n.ports.get f.port).opened = false from shut]), port.attention⟩

theorem Sound.takeDrop {n : NoticeUnit} (sound : n.Sound) (p : Port) (index : EntryIndex) (serial : Word) :
    (n.takeDrop p index serial).Sound := by
  have port := sound p
  unfold NoticeUnit.takeDrop
  dsimp only
  split
  next opened =>
    refine sound.set rfl ⟨port.bound, port.order.filter _, fun owes => port.full (owes.imp_left fun kept none => ?_),
      port.numbers, fun shut => absurd opened (by simp [show (n.ports.get p).opened = false from shut]), port.attention⟩
    exact kept (by simp [none])
  · exact sound

theorem Sound.told {n n' : NoticeUnit} (sound : n.Sound) (told : n.Told n') : n'.Sound := by
  cases told with
  | health r => exact (sound.withCopies _).giveSubscribed _ _
  | loop => exact (sound.withCopies _).giveSubscribed _ _
  | overspeed => exact (sound.withCopies _).giveSubscribed _ _
  | activation => exact (sound.withCopies _).giveSubscribed _ _
  | lease holder grant =>
    unfold takeLease
    dsimp only
    split
    · exact (sound.withCopies _).giveTo _ _
    all_goals exact sound
  | fire f => exact sound.takeFire f
  | drop p index serial => exact sound.takeDrop p index serial

/-! ## NOTICE_POP, the opening and the closing of a port (R124, R128, R129) -/

/-- Where nothing is owed after the summary or the lowest item has been posted in the place of the head, or the queue
stays full, the popped record is settled. -/
theorem Sound.pop {n : NoticeUnit} (sound : n.Sound) (p : Port) (tag : Byte) : (n.pop p tag).Sound := by
  obtain ⟨bound, order, full, numbers, closed, -⟩ := sound p
  unfold NoticeUnit.pop
  dsimp only
  split
  · exact sound
  next head rest queue =>
    have opened : (n.ports.get p).opened = true := by
      by_contra shut
      simp [(closed (by simpa using shut)).1] at queue
    have length : (n.ports.get p).queue.length = rest.length + 1 := by rw [queue]; rfl
    have tail := NoticePort.numbers_tail queue numbers
    have after_full (owes : (n.ports.get p).owed ≠ [] ∨ (n.ports.get p).summaryOwed = true) : rest.length = 15 := by
      have := full owes
      omega
    split
    next owes =>
      have posted := NoticePort.post_settled (r := { n.ports.get p with queue := rest }) (n.summaryFor p)
        (by dsimp only; omega) order after_full tail opened
      exact sound.commit p ⟨posted.bound, posted.order, fun _ => posted.full (.inr owes), posted.numbers,
        fun shut => absurd opened (by simp [show (n.ports.get p).opened = false from shut])⟩
    next no_summary =>
      split
      next f fs owed =>
        have posted := NoticePort.post_settled (r := { n.ports.get p with queue := rest }) (.fired f)
          (by dsimp only; omega) order after_full tail opened
        rw [owed] at order
        have popped := sound.commit p (r := { NoticePort.post { n.ports.get p with queue := rest } (.fired f) with
            owed := fs })
          ⟨posted.bound, (List.pairwise_cons.mp order).2,
            fun _ => posted.full (.inl (show (n.ports.get p).owed ≠ [] by simp [owed])), posted.numbers,
            fun shut => absurd opened (by simp [show (n.ports.get p).opened = false from shut])⟩
        exact popped.releaseIfFinal f
      next owed =>
        exact sound.commit p (r := { n.ports.get p with queue := rest })
          ⟨by dsimp only; omega, order, fun owes => absurd owes (by simp [owed, no_summary]), tail,
            fun shut => absurd opened (by simp [show (n.ports.get p).opened = false from shut])⟩

theorem Sound.openPort {n : NoticeUnit} (sound : n.Sound) (p : Port) (subs : Subscriptions) :
    (n.openPort p subs).Sound :=
  sound.commit p ⟨by simp [NoticePort.emptied], by simp [NoticePort.emptied], by simp [NoticePort.emptied],
    by simp [NoticePort.emptied], by simp⟩

theorem Sound.closePort {n : NoticeUnit} (sound : n.Sound) (p : Port) : (n.closePort p).Sound := by
  unfold NoticeUnit.closePort
  dsimp only
  split <;> exact sound.commit p ⟨by simp [NoticePort.emptied], by simp [NoticePort.emptied],
    by simp [NoticePort.emptied], by simp [NoticePort.emptied], by simp [NoticePort.emptied]⟩

theorem Sound.takePurgeMark {n : NoticeUnit} (sound : n.Sound) (p : Port) : (n.takePurgeMark p).Sound := by
  obtain ⟨bound, order, full, numbers, closed, attention⟩ := sound p
  unfold NoticeUnit.takePurgeMark
  dsimp only
  split
  · exact sound.set rfl ⟨bound, order, full, numbers, closed, attention⟩
  split
  · exact sound.set rfl ⟨bound, order, full, numbers, closed, attention⟩
  · exact sound

theorem reset_sound : NoticeUnit.reset.Sound := by
  intro p
  have port : NoticeUnit.reset.ports.get p = NoticePort.reset := PerPort.get_all _ p
  rw [port]
  constructor <;> simp [NoticePort.reset]

end NoticeUnit

/-! ## Every step -/

theorem Effect.keeps_nu_sound {s t : State} (effect : Effect s t) (sound : s.nu.Sound) : t.nu.Sound := by
  cases effect
  case noticeTold told => exact sound.told told
  case noticeMarked => exact sound.takePurgeMark _
  case noticePopped => exact sound.pop _ _
  case noticeOpened => exact sound.openPort _ _
  case noticeClosed => exact sound.closePort _
  all_goals exact sound

/-- Settles O57: every effect keeps NU sound, and reset makes it sound. -/
theorem noticeQueuesStaySound : Obligations.NoticeQueuesStaySound := by
  intro s s'
  exact step_keeps (P := fun s => s.nu.Sound) (fun _ _ => NoticeUnit.reset_sound) (fun _ _ _ _ _ sound => sound)
    (fun _ _ effect sound => effect.keeps_nu_sound sound)

end Sys2Proof.Machine
end

section
/-! A step report at the Trigger Table (chapter 5): which bookings fire, what one firing leaves and sends, and the order of
the firings. -/

namespace Sys2Proof.Machine

open Sys2Proof.Claims

/-! ## Which bookings fire (R95 to R100) -/

/-- The model's qualifiers are the statements': a report with no direction crosses nothing (R96). -/
theorem Booking.firesOn_iff (b : Booking) (r : StepReport) : b.firesOn r = true ↔ Fires r b := by
  have qualifiers : b.firesOn r = true ↔ r.ambiguous = false ∧ b.state = .armed ∧ r.crosses b.angle = true ∧
      b.direction.admits r.sign = true ∧ b.confidence.admits r.state = true := by
    simp only [firesOn, Bool.and_eq_true, Bool.not_eq_true', beq_iff_eq, and_assoc]
  rw [qualifiers, Fires]
  refine and_congr_right' (and_congr_right' ?_)
  have confident : b.confidence.admits r.state = true ↔ r.state = .track ∨ b.confidence = .trackOrCoast := by
    cases r.state <;> simp [Confidence.admits]
  rw [confident, ← and_assoc, ← and_assoc]
  refine and_congr_left' ?_
  cases sign : r.sign <;> cases b.direction <;>
    simp [StepReport.crosses, StepReport.pathDistance, StepReport.pathLength, Direction.admits, pathDistance,
      pathLength, sign]

theorem pathDistance_eq {r : StepReport} {b : Booking} (fires : Fires r b) :
    r.pathDistance b.angle = pathDistance r b.angle := by
  obtain ⟨-, -, ⟨sign, -⟩, -⟩ := fires
  unfold StepReport.pathDistance pathDistance
  split <;> simp_all

/-! ## One firing (R102 to R105) -/

theorem Mode.afterFiring_isNone (b : Booking) : b.mode.afterFiring.isNone = lastFiring b := by
  unfold lastFiring
  cases b.mode with
  | once => rfl
  | rearm d rem =>
    cases rem with
    | unlimited => rfl
    | finite n =>
      by_cases last : n = 1#8
      · subst last; rfl
      · have more : Mode.afterFiring (.rearm d (.finite n)) = some (.rearm d (.finite (n - 1))) := by
          unfold Mode.afterFiring
          split <;> simp_all
        simp [more, last]

/-- The entry after a firing: FREE when the last firing does not notify, else the statements' record (R102, R105). -/
theorem Booking.afterFiring_eq (b : Booking) (r : StepReport) :
    b.afterFiring r.stamp =
      if lastFiring b = true ∧ b.action.notifies = false then none else some (Claims.afterFiring r b) := by
  obtain ⟨state, owner, serial, tag, angle, direction, action, mode, confidence, firedTotal, lastFire⟩ := b
  cases mode with
  | once =>
    cases h : action.notifies <;> simp [Booking.afterFiring, Mode.afterFiring, lastFiring, h, Claims.afterFiring, counted]
  | rearm d rem =>
    cases rem with
    | unlimited => simp [Booking.afterFiring, Mode.afterFiring, lastFiring, Claims.afterFiring, counted]
    | finite n =>
      by_cases last : n = 1#8
      · subst last
        cases h : action.notifies <;> simp [Booking.afterFiring, Mode.afterFiring, lastFiring, h, Claims.afterFiring, counted]
      · have more : Mode.afterFiring (.rearm d (.finite n)) = some (.rearm d (.finite (n - 1))) := by
          unfold Mode.afterFiring
          split <;> simp_all
        simp [Booking.afterFiring, more, lastFiring, last, Claims.afterFiring, counted]

namespace TriggerTable

/-- What the firing of entry i, holding b, sends NU (R104). -/
def firedToNu (r : StepReport) (x : EntryIndex × Booking) : List TtNuMsg :=
  if x.2.action.notifies then
    [.fire ⟨x.2.owner, x.1, x.2.serial, x.2.tag, x.2.angle, if r.sign = .neg then .rev else .fwd, r.stamp, r.state,
      lastFiring x.2⟩]
  else []

/-- What the firing of entry i, holding b, sends LU (R103, R105). -/
def firedToLu (x : EntryIndex × Booking) : List TtLuMsg :=
  match x.2.action.line? with
  | none => []
  | some l => .pulse l x.2.owner ::
    if lastFiring x.2 && !x.2.action.notifies then [.referenceRemoved l x.2.owner] else []

theorem fireReport_eq (b : Booking) (i : EntryIndex) (r : StepReport) :
    b.fireReport i r = ⟨b.owner, i, b.serial, b.tag, b.angle, if r.sign = .neg then .rev else .fwd, r.stamp, r.state,
      lastFiring b⟩ := by
  have passage : r.passage = if r.sign = .neg then .rev else .fwd := by
    unfold StepReport.passage
    cases r.sign <;> rfl
  simp only [Booking.fireReport, passage, Mode.afterFiring_isNone]

/-- One firing replaces its entry and sends its messages (R102 to R105). -/
theorem fire_eq (r : StepReport) (t : TriggerTable) (i : EntryIndex) (b : Booking) :
    t.fire r i b = { t with
      entries := t.entries.set i (b.afterFiring r.stamp)
      toNu := t.toNu ++ firedToNu r (i, b), toLu := t.toLu ++ firedToLu (i, b) } := by
  unfold fire
  simp only [tellLu_eq, tellNu_eq, setEntry, fireReport_eq]
  rw [Booking.afterFiring_eq]
  cases notifies : b.action.notifies <;> cases last : lastFiring b <;> cases line : b.action.line? <;>
    simp [firedToNu, firedToLu, notifies, last, line]

/-! ## All firings (R95, R101) -/

/-- The entries after firings of candidates with different indices: each fired entry is what its firing leaves. -/
theorem foldl_fired_getElem (stamp : Word) (cs : List Candidate) (e : Vector Entry 64)
    (once : (cs.map Candidate.index).Nodup) (i : EntryIndex) :
    (∀ c ∈ cs, c.index = i →
        (cs.foldl (fun e c => e.set c.index (c.booking.afterFiring stamp)) e)[i] = c.booking.afterFiring stamp) ∧
      ((∀ c ∈ cs, c.index ≠ i) →
        (cs.foldl (fun e c => e.set c.index (c.booking.afterFiring stamp)) e)[i] = e[i]) := by
  induction cs generalizing e with
  | nil => simp
  | cons d cs ih =>
    rw [List.map_cons, List.nodup_cons] at once
    obtain ⟨fired, unfired⟩ := ih (e.set d.index (d.booking.afterFiring stamp)) once.2
    rw [List.foldl_cons]
    refine ⟨fun c mem same => ?_, fun none => ?_⟩
    · rcases List.mem_cons.mp mem with rfl | mem
      · rw [unfired fun c' mem' same' => once.1 (List.mem_map.mpr ⟨c', mem', same'.trans same.symm⟩)]
        subst same
        simp
      · exact fired c mem same
    · rw [unfired fun c mem => none c (List.mem_cons_of_mem _ mem)]
      have other : d.index.val ≠ i.val := fun same => none d List.mem_cons_self (Fin.ext same)
      simp [other]

theorem fireAll_eq (r : StepReport) (t : TriggerTable) (cs : List Candidate) :
    t.fireAll r cs = { t with
      entries := cs.foldl (fun e c => e.set c.index (c.booking.afterFiring r.stamp)) t.entries
      toNu := t.toNu ++ cs.flatMap (fun c => firedToNu r (c.index, c.booking))
      toLu := t.toLu ++ cs.flatMap (fun c => firedToLu (c.index, c.booking)) } := by
  induction cs generalizing t with
  | nil => simp [fireAll]
  | cons c cs ih =>
    have step : t.fireAll r (c :: cs) = (t.fire r c.index c.booking).fireAll r cs := rfl
    rw [step, ih, fire_eq]
    simp [List.append_assoc]

/-! ## The candidates and their order (R95, R96, R101) -/

theorem candidateAt_eq_some (t : TriggerTable) (r : StepReport) (i : EntryIndex) (c : Candidate) :
    t.candidateAt r i = some c ↔
      t.entries[i] = some c.booking ∧ Fires r c.booking ∧ c.index = i ∧ c.distance = r.pathDistance c.booking.angle := by
  obtain ⟨distance, index, booking⟩ := c
  unfold candidateAt
  cases h : t.entries[i] with
  | none => simp
  | some b =>
    by_cases fires : b.firesOn r = true
    · have := (Booking.firesOn_iff b r).mp fires
      simp only [fires, if_true, Option.some.injEq, Candidate.mk.injEq]
      constructor
      · rintro ⟨rfl, rfl, rfl⟩
        exact ⟨rfl, this, rfl, rfl⟩
      · rintro ⟨rfl, -, rfl, rfl⟩
        exact ⟨rfl, rfl, rfl⟩
    · simp only [fires, Bool.false_eq_true, if_false, reduceCtorEq, false_iff, Option.some.injEq]
      rintro ⟨rfl, fires', -⟩
      exact fires ((Booking.firesOn_iff b r).mpr fires')

theorem mem_evaluate (t : TriggerTable) (r : StepReport) (c : Candidate) :
    c ∈ t.evaluate r ↔
      t.entries[c.index] = some c.booking ∧ Fires r c.booking ∧ c.distance = r.pathDistance c.booking.angle := by
  unfold evaluate
  simp only [List.mem_filterMap, List.mem_finRange, true_and, candidateAt_eq_some]
  constructor
  · rintro ⟨i, found, fires, rfl, distance⟩
    exact ⟨found, fires, distance⟩
  · rintro ⟨found, fires, distance⟩
    exact ⟨c.index, found, fires, rfl, distance⟩

/-- The evaluation phase goes through the entries in index order (R95). -/
theorem evaluate_ordered (t : TriggerTable) (r : StepReport) :
    (t.evaluate r).Pairwise (fun a b => a.index < b.index) := by
  refine List.Pairwise.filterMap (R := fun i j : EntryIndex => i < j) _ ?_ (List.pairwise_lt_finRange 64)
  intro i j less a ha b hb
  rw [((candidateAt_eq_some t r i a).mp ha).2.2.1, ((candidateAt_eq_some t r j b).mp hb).2.2.1]
  exact less

/-- A candidate comes before another in path order: nearer, or at its distance with a lower index (R101). -/
def Before (a b : Candidate) : Prop := a.distance < b.distance ∨ (a.distance = b.distance ∧ a.index < b.index)

theorem insertInOrder_perm (c : Candidate) (l : List Candidate) : (insertInOrder c l).Perm (c :: l) := by
  induction l with
  | nil => exact List.Perm.refl _
  | cons d ds ih =>
    unfold insertInOrder
    split
    · exact List.Perm.refl _
    · exact (ih.cons d).trans (List.Perm.swap ..)

/-- A candidate with an index above all others is put behind those at its distance. -/
theorem insertInOrder_before {c : Candidate} {l : List Candidate} (sorted : l.Pairwise Before)
    (above : ∀ d ∈ l, d.index < c.index) : (insertInOrder c l).Pairwise Before := by
  induction l with
  | nil => simp [insertInOrder]
  | cons d ds ih =>
    have ⟨first, tail⟩ := List.pairwise_cons.mp sorted
    unfold insertInOrder
    split
    next near =>
      refine List.pairwise_cons.mpr ⟨fun x mem => .inl ?_, sorted⟩
      rcases List.mem_cons.mp mem with rfl | mem
      · exact near
      · rcases first x mem with less | ⟨same, -⟩
        · exact near.trans less
        · exact same ▸ near
    next far =>
      refine List.pairwise_cons.mpr ⟨fun x mem => ?_, ih tail fun x mem => above x (List.mem_cons_of_mem _ mem)⟩
      rcases (mem_insertInOrder c x ds).mp mem with rfl | mem
      · rcases lt_or_eq_of_le (not_lt.mp far) with less | same
        · exact .inl less
        · exact .inr ⟨same, above d List.mem_cons_self⟩
      · exact first x mem

theorem pathOrder_perm (cs : List Candidate) : (pathOrder cs).Perm cs := by
  have fold : ∀ (cs l : List Candidate), (cs.foldl (fun l c => insertInOrder c l) l).Perm (l ++ cs) := by
    intro cs
    induction cs with
    | nil => intro l; simp
    | cons c cs ih =>
      intro l
      rw [List.foldl_cons]
      exact (ih _).trans (((insertInOrder_perm c l).append_right cs).trans List.perm_middle.symm)
  simpa [pathOrder] using fold cs []

theorem pathOrder_before {cs : List Candidate} (ordered : cs.Pairwise (fun a b => a.index < b.index)) :
    (pathOrder cs).Pairwise Before := by
  have fold : ∀ (cs l : List Candidate), cs.Pairwise (fun a b => a.index < b.index) → l.Pairwise Before →
      (∀ d ∈ l, ∀ c ∈ cs, d.index < c.index) → (cs.foldl (fun l c => insertInOrder c l) l).Pairwise Before := by
    intro cs
    induction cs with
    | nil => exact fun l _ sorted _ => sorted
    | cons c cs ih =>
      intro l ordered sorted below
      obtain ⟨first, tail⟩ := List.pairwise_cons.mp ordered
      refine ih _ tail (insertInOrder_before sorted fun d mem => below d mem c List.mem_cons_self) fun d mem x hx => ?_
      rcases (mem_insertInOrder c d l).mp mem with rfl | mem
      · exact first x hx
      · exact below d mem x (List.mem_cons_of_mem _ hx)
  exact fold cs [] ordered List.Pairwise.nil (by simp)

/-! ## The whole report -/

/-- The firings of a report in their order. -/
def firings (t : TriggerTable) (r : StepReport) : List Candidate := pathOrder (t.evaluate r)

theorem mem_firings (t : TriggerTable) (r : StepReport) (c : Candidate) :
    c ∈ t.firings r ↔
      t.entries[c.index] = some c.booking ∧ Fires r c.booking ∧ c.distance = r.pathDistance c.booking.angle :=
  (pathOrder_perm _).mem_iff.trans (mem_evaluate t r c)

theorem firings_once (t : TriggerTable) (r : StepReport) : ((t.firings r).map Candidate.index).Nodup := by
  rw [firings, ((pathOrder_perm (t.evaluate r)).map _).nodup_iff, List.Nodup, List.pairwise_map]
  exact (evaluate_ordered t r).imp fun less => less.ne

theorem takeReport_eq (t : TriggerTable) (r : StepReport) :
    t.takeReport r = { t with
      entries := ((t.firings r).foldl (fun e c => e.set c.index (c.booking.afterFiring r.stamp)) t.entries).map
        (rearmed r.newAngle)
      toNu := t.toNu ++ (t.firings r).flatMap (fun c => firedToNu r (c.index, c.booking))
      toLu := t.toLu ++ (t.firings r).flatMap (fun c => firedToLu (c.index, c.booking)) } := by
  unfold takeReport
  rw [fireAll_eq]
  rfl

/-- An entry after a step report: fired or not, and then tested for re-arming (R95). -/
theorem takeReport_entry (t : TriggerTable) (r : StepReport) (i : EntryIndex) :
    (∀ b, t.entries[i] = some b → Fires r b →
        (t.takeReport r).entries[i] = (b.afterFiring r.stamp).map (rearmedAt r.newAngle)) ∧
      ((∀ b, t.entries[i] = some b → ¬ Fires r b) →
        (t.takeReport r).entries[i] = t.entries[i].map (rearmedAt r.newAngle)) := by
  have entry : (t.takeReport r).entries[i] =
      (((t.firings r).foldl (fun e c => e.set c.index (c.booking.afterFiring r.stamp)) t.entries)[i]).map
        (rearmedAt r.newAngle) := by
    rw [takeReport_eq, ← rearmed_eq_map]
    exact Vector.getElem_map ..
  obtain ⟨fired, unfired⟩ := foldl_fired_getElem r.stamp (t.firings r) t.entries (firings_once t r) i
  refine ⟨fun b found fires => ?_, fun none => ?_⟩
  · rw [entry, fired ⟨r.pathDistance b.angle, i, b⟩ ((mem_firings t r _).mpr ⟨found, fires, rfl⟩) rfl]
  · rw [entry, unfired]
    rintro c mem rfl
    obtain ⟨found, fires, -⟩ := (mem_firings t r c).mp mem
    exact none _ found fires

end TriggerTable

/-- Settles O28: an entry is what its firing leaves, or what it was, and then tested for re-arming. -/
theorem stepReportEntryByEntry : Obligations.StepReportEntryByEntry := by
  intro s r rest running path
  refine ⟨s.tt.takeReport r, exec_stepReport running path, ?_⟩
  have other := TriggerTable.takeReport_eq s.tt r
  refine ⟨by rw [other], by rw [other], by rw [other], by rw [other], fun i => ?_⟩
  obtain ⟨fired, unfired⟩ := s.tt.takeReport_entry r i
  refine ⟨fun free => ?free, fun b found => ⟨fun fires last silent => ?freed, fun fires stays => ?stays, fun rests => ?rests⟩⟩
  case free =>
    rw [unfired (by simp [free]), free]
    rfl
  case freed => rw [fired b found fires, Booking.afterFiring_eq, if_pos ⟨last, silent⟩, Option.map_none]
  case stays =>
    have kept : ¬ (lastFiring b = true ∧ b.action.notifies = false) := fun ⟨last, silent⟩ => by
      rw [stays last] at silent
      cases silent
    rw [fired b found fires, Booking.afterFiring_eq, if_neg kept, Option.map_some]
  case rests =>
    have none (b' : Booking) (found' : s.tt.entries[i] = some b') : ¬ Fires r b' :=
      Option.some.inj (found.symm.trans found') ▸ rests
    rw [unfired none, found, Option.map_some]

/-- Settles O29: the firings are the candidates in path order, and each sends its own messages. -/
theorem firingsSendInPathOrder : Obligations.FiringsSendInPathOrder := by
  intro s r rest running path
  refine ⟨s.tt.takeReport r, (s.tt.firings r).map (fun c => (c.index, c.booking)), exec_stepReport running path,
    fun i b => ?members, ?order, ?toNu, ?toLu⟩
  case members =>
    simp only [List.mem_map, TriggerTable.mem_firings, Prod.mk.injEq]
    constructor
    · rintro ⟨c, ⟨found, fires, -⟩, rfl, rfl⟩
      exact ⟨found, fires⟩
    · rintro ⟨found, fires⟩
      exact ⟨⟨r.pathDistance b.angle, i, b⟩, ⟨found, fires, rfl⟩, rfl, rfl⟩
  case order =>
    rw [List.pairwise_map]
    refine (TriggerTable.pathOrder_before (s.tt.evaluate_ordered r)).imp_of_mem fun {x y} hx hy before => ?_
    obtain ⟨-, xfires, xdistance⟩ := (s.tt.mem_firings r x).mp hx
    obtain ⟨-, yfires, ydistance⟩ := (s.tt.mem_firings r y).mp hy
    rwa [TriggerTable.Before, xdistance, ydistance, pathDistance_eq xfires, pathDistance_eq yfires] at before
  case toNu =>
    rw [TriggerTable.takeReport_eq, List.flatMap_map]
    rfl
  case toLu =>
    rw [TriggerTable.takeReport_eq, List.flatMap_map]
    rfl

end Sys2Proof.Machine
end

section
/-! What SU does to one port (chapter 8), as the teardown sees it: the session's state, the done reports awaited, and the
messages of the port on the paths to TT, NU, LU and CU. Every happening of SU is a chain of five moves of that view. -/

namespace Sys2Proof.Machine

/-- Port p as its teardown sees it. -/
structure PortView where
  state : SessionState
  awaited : AwaitedDone
  tt : List SuTtMsg
  nu : List SuNuMsg
  lu : List SuLuMsg
  cu : List SuCuMsg

/-- The view of port p that a record of SU gives. -/
def SessionUnit.view (u : SessionUnit) (p : Port) : PortView where
  state := (u.sessions.get p).state
  awaited := (u.sessions.get p).awaited
  tt := u.toTt.filter (SuTtMsg.concerns p)
  nu := u.toNu.filter (SuNuMsg.moves p)
  lu := u.toLu.filter (SuLuMsg.concerns p)
  cu := u.toCu.filter (SuCuMsg.concerns p)

/-- What SU does to the view of port p: nothing; a request of an OPEN session is forwarded; a teardown begins; a session
opens; a session closes whose last done report has come. -/
inductive PortView.Move (p : Port) (v : PortView) : PortView → Prop
  | quiet : Move p v v
  | sent (tt : List SuTtMsg) (lu : List SuLuMsg) (cu : List SuCuMsg) : v.state = .opened →
      .purge p ∉ tt → .releaseAll p ∉ lu → .purge p ∉ cu →
      Move p v { v with tt := v.tt ++ tt, lu := v.lu ++ lu, cu := v.cu ++ cu }
  | torn : v.state = .opened → Move p v { v with
      state := .closing, awaited := ⟨true, true, true, true, true⟩
      tt := v.tt ++ [.purge p], nu := v.nu ++ [.closePort p], cu := v.cu ++ [.purge p] }
  | joined (subs : Subscriptions) : v.state = .closed →
      Move p v { v with state := .opened, nu := v.nu ++ [.openPort p subs] }
  | finished : v.state = .closing → v.awaited = AwaitedDone.none → Move p v { v with state := .closed }

/-- A chain of moves. -/
abbrev PortView.Moves (p : Port) : PortView → PortView → Prop := Relation.ReflTransGen (PortView.Move p)

/-- What every move keeps, a chain of moves keeps. -/
theorem PortView.Moves.keeps {p : Port} {P : PortView → Prop} (move : ∀ v v', PortView.Move p v v' → P v → P v')
    {v v' : PortView} (moves : PortView.Moves p v v') (start : P v) : P v' := by
  induction moves with
  | refl => exact start
  | tail _ last ih => exact move _ _ last ih

/-- The gate admits a request of an OPEN session, a JOIN of a CLOSED one, and HOST_STATUS and NOP everywhere (R147). -/
theorem Session.gate_eq_none {r : Session} {b : ReqBody} (h : r.gate b = none) :
    r.state = .opened ∨ (r.state = .closed ∧ ∃ t x, b = .join t x) ∨ b = .hostStatus ∨ b = .nop := by
  unfold Session.gate at h
  cases hs : r.state with
  | opened => exact .inl rfl
  | closed =>
    rw [hs] at h
    cases b <;> cases h <;> simp
  | closing =>
    rw [hs] at h
    cases b <;> cases h <;> simp

namespace SessionUnit

/-! ## The view after one operation -/

theorem view_setSession (u : SessionUnit) (p q : Port) (r : Session) :
    (u.setSession p r).view q =
      if q = p then { u.view q with state := r.state, awaited := r.awaited } else u.view q := by
  simp only [view, setSession, PerPort.get_set]
  split <;> rfl

/-- A record replaced by one in the same state, awaiting the same done reports. -/
theorem view_setSession_same {u : SessionUnit} {p : Port} {r : Session} (state : r.state = (u.sessions.get p).state)
    (awaited : r.awaited = (u.sessions.get p).awaited) (q : Port) : (u.setSession p r).view q = u.view q := by
  rw [view_setSession]
  split
  next same => rw [same, state, awaited]; rfl
  · rfl

theorem view_hear (u : SessionUnit) (now : Nat) (p q : Port) : (u.hear now p).view q = u.view q := by
  refine view_setSession_same ?_ ?_ q <;> (unfold Session.heard; split <;> simp_all)

theorem view_answer (u : SessionUnit) (p q : Port) (tag : Byte) (st : Status) (payload : List Byte) :
    (u.answer p tag st payload).view q = u.view q := rfl

/-- A request forwarded joins one path, and is not a message of the teardown. -/
theorem forward_moves (u : SessionUnit) (r : Request) (opened : (u.view r.port).state = .opened) (q : Port) :
    PortView.Moves q (u.view q) ((u.forward r).view q) := by
  by_cases same : r.port = q
  · subst same
    have sent (tt : List SuTtMsg) (lu : List SuLuMsg) (cu : List SuCuMsg) :=
      PortView.Move.sent (p := r.port) (v := u.view r.port) tt lu cu opened
    cases owner : r.body.owner
    case tt =>
      have move := sent [.request r] [] [] (by simp) (by simp) (by simp)
      exact .single (by simpa [forward, owner, view, SuTtMsg.concerns] using move)
    case lu =>
      have move := sent [] [.request r] [] (by simp) (by simp) (by simp)
      exact .single (by simpa [forward, owner, view, SuLuMsg.concerns] using move)
    case cu =>
      have move := sent [] [] [.request r] (by simp) (by simp) (by simp)
      exact .single (by simpa [forward, owner, view, SuCuMsg.concerns] using move)
    all_goals
      have still : (u.forward r).view r.port = u.view r.port := by simp [forward, owner, view, SuNuMsg.moves]
      rw [still]
  · have still : (u.forward r).view q = u.view q := by
      unfold forward
      cases r.body.owner <;> simp [view, SuTtMsg.concerns, SuLuMsg.concerns, SuCuMsg.concerns, SuNuMsg.moves, same]
    rw [still]

theorem teardown_moves (u : SessionUnit) (p : Port) (cause : CloseCause) (opened : (u.view p).state = .opened)
    (q : Port) : PortView.Moves q (u.view q) ((u.teardown p cause).view q) := by
  by_cases same : p = q
  · subst same
    exact .single (by simpa [teardown, view, setSession, Session.torn, SuTtMsg.concerns, SuCuMsg.concerns,
      SuNuMsg.moves] using PortView.Move.torn opened)
  · have still : (u.teardown p cause).view q = u.view q := by
      simp [teardown, view, setSession, SuTtMsg.concerns, SuCuMsg.concerns, SuNuMsg.moves, same, PerPort.get_set,
        Ne.symm same]
    rw [still]

theorem openSession_moves (u : SessionUnit) (now : Nat) (p : Port) (timeout : Word) (subs : Subscriptions) (tag : Byte)
    (closed : (u.view p).state = .closed) (q : Port) :
    PortView.Moves q (u.view q) ((u.openSession now p timeout subs tag).view q) := by
  rw [openSession_eq]
  by_cases same : p = q
  · subst same
    exact .single (by simpa [view, Session.joined, SuNuMsg.moves] using PortView.Move.joined subs closed)
  · have still : ∀ r hp si, SessionUnit.view { u with
        sessions := u.sessions.set p r, toNu := u.toNu ++ [.openPort p subs], toSi := si, toHp := hp } q = u.view q := by
      intro r hp si
      simp [view, SuNuMsg.moves, same, PerPort.get_set, Ne.symm same]
    rw [still]

/-! ## A request SU takes (R147 to R155) -/

theorem join_moves (u : SessionUnit) (now : Nat) (p : Port) (tag : Byte) (timeout : Word) (subs : Byte)
    (not_closing : (u.view p).state ≠ .closing) (q : Port) :
    PortView.Moves q (u.view q) ((u.join now p tag timeout subs).view q) := by
  unfold join
  split
  · exact .refl
  next s _ =>
    split
    next opened =>
      have held := view_setSession_same (u := u) (p := p)
        (r := { u.sessions.get p with held := some ⟨timeout, s, tag⟩ }) rfl rfl
      have torn := teardown_moves (u.setSession p { u.sessions.get p with held := some ⟨timeout, s, tag⟩ }) p .rejoined
        (by rw [held]; exact opened) q
      rwa [held] at torn
    next closed => exact openSession_moves u now p timeout s tag closed q
    next closing => exact absurd closing not_closing

theorem Asked.moves {now : Nat} {u u' : SessionUnit} {r : Request} (asked : u.Asked now r u') (q : Port) :
    PortView.Moves q (u.view q) (u'.view q) := by
  have heard := view_hear u now r.port
  cases asked with
  | refused => exact .refl
  | answered => rw [view_answer, heard]
  | forwarded admitted owner =>
    have opened : (u.view r.port).state = .opened := by
      rcases Session.gate_eq_none admitted with opened | ⟨-, t, x, body⟩ | body | body
      · exact opened
      all_goals exact absurd (by rw [body]; rfl) owner
    simpa only [heard] using forward_moves (u.hear now r.port) r (by rw [heard]; exact opened) q
  | joined timeout subs body admitted =>
    have not_closing : (u.view r.port).state ≠ .closing := fun closing => by
      rcases Session.gate_eq_none admitted with opened | ⟨closed, -⟩ | body' | body'
      · exact SessionState.noConfusion (opened.symm.trans closing)
      · exact SessionState.noConfusion (closed.symm.trans closing)
      all_goals exact ReqBody.noConfusion (body.symm.trans body')
    simpa only [heard] using
      join_moves (u.hear now r.port) now r.port r.tag timeout subs (by rw [heard]; exact not_closing) q
  | left body admitted =>
    have opened : (u.view r.port).state = .opened := by
      rcases Session.gate_eq_none admitted with opened | ⟨-, t, x, body'⟩ | body' | body'
      · exact opened
      all_goals exact ReqBody.noConfusion (body.symm.trans body')
    simpa only [heard, view_answer] using teardown_moves (u.hear now r.port) r.port .left (by rw [heard]; exact opened) q

end SessionUnit

/-! ## A done report (R157) -/

/-- The view of the port whose done report SU has taken, before a completed teardown goes on. -/
def PortView.reported (v : PortView) (block : Block) (p : Port) : PortView :=
  { v with awaited := v.awaited.without block, lu := v.lu ++ if block = .tt then [.releaseAll p] else [] }

namespace SessionUnit

/-- A completed teardown closes the session, and a held JOIN opens the next one. -/
theorem finish_moves (u : SessionUnit) (now : Nat) (p : Port) (closing : (u.view p).state = .closing)
    (complete : (u.view p).awaited = AwaitedDone.none) (q : Port) :
    PortView.Moves q (u.view q) ((u.finish now p).view q) := by
  have closed : PortView.Moves q (u.view q)
      ((u.setSession p { u.sessions.get p with state := .closed }).view q) := by
    rw [view_setSession]
    split
    next same =>
      subst same
      exact .single (PortView.Move.finished closing complete)
    · exact .refl
  unfold finish
  dsimp only
  split
  · exact closed
  next j _ =>
    refine closed.trans (openSession_moves _ now p j.timeout j.subs j.tag ?_ q)
    rw [view_setSession, if_pos rfl]

theorem takeDone_ignored {u : SessionUnit} {now : Nat} {block : Block} {p : Port}
    (ignored : ¬ ((u.view p).state = .closing ∧ (u.view p).awaited.has block = true)) : u.takeDone now block p = u :=
  if_neg ignored

/-- A done report that SU awaits, and a completed teardown after it. -/
theorem takeDone_moves {u : SessionUnit} (now : Nat) {block : Block} {p : Port}
    (closing : (u.view p).state = .closing) (awaits : (u.view p).awaited.has block = true) (q : Port) :
    PortView.Moves q (if q = p then (u.view q).reported block p else u.view q) ((u.takeDone now block p).view q) := by
  let v : SessionUnit :=
    { u.setSession p { u.sessions.get p with awaited := (u.sessions.get p).awaited.without block } with
      toLu := u.toLu ++ if block = .tt then [.releaseAll p] else [] }
  have taken : u.takeDone now block p =
      if (u.sessions.get p).awaited.without block = AwaitedDone.none then v.finish now p else v := by
    unfold takeDone
    dsimp only
    rw [if_pos ⟨closing, awaits⟩]
    by_cases tt : block = .tt <;> simp [v, tt, setSession]
  have before (q : Port) : v.view q = if q = p then (u.view q).reported block p else u.view q := by
    by_cases same : q = p
    · subst same
      by_cases tt : block = .tt <;> simp [v, view, setSession, PortView.reported, SuLuMsg.concerns, tt]
    · by_cases tt : block = .tt <;>
        simp [v, view, setSession, PerPort.get_set, same, tt, SuLuMsg.concerns, Ne.symm same]
  rw [taken, ← before]
  split
  next complete =>
    have mine := before p
    rw [if_pos rfl] at mine
    exact finish_moves v now p (by rw [mine]; exact closing) (by rw [mine]; exact complete) q
  · exact .refl

end SessionUnit

end Sys2Proof.Machine
end

section
/-! The table's entries and the lease end before their port's session (R70, R157, R162): SU, the messages on its path to
the block and the block's done reports stand together in one of a few ways, and every effect leads from one to another. -/

namespace Sys2Proof.Machine

/-! ## A block that purges a port in one happening -/

/-- How the session of a port stands to a block that purges the port on SU's message and reports at once: `awaited` says
that SU awaits the report, `reports` counts those on their way, `path` holds the port's messages to the block, and
`without` says that the block holds nothing for the port. -/
structure Tied {μ : Type} (purge : μ) (state : SessionState) (awaited : Bool) (reports : Nat) (path : List μ)
    (without : Prop) : Prop where
  gone : state = .closed ∨ (state = .closing ∧ (awaited = false ∨ 0 < reports)) → without ∧ path = []
  last : state = .closing → awaited = true → reports = 0 → ∃ before, path = before ++ [purge] ∧ purge ∉ before
  none : state = .opened → purge ∉ path
  report : reports ≤ 1 ∧ (0 < reports → state = .closing ∧ awaited = true)

namespace Tied

variable {μ : Type} {purge m : μ} {state : SessionState} {awaited : Bool} {reports : Nat} {path : List μ}
  {without without' : Prop}

theorem reset (nothing : without) : Tied purge .closed awaited 0 [] without :=
  ⟨fun _ => ⟨nothing, rfl⟩, by simp, by simp, by simp⟩

theorem mono (tied : Tied purge state awaited reports path without) (h : without → without') :
    Tied purge state awaited reports path without' :=
  ⟨fun gone => (tied.gone gone).imp_left h, tied.last, tied.none, tied.report⟩

/-- Where a message is on the path, the block has not purged the port as SU knows it. -/
theorem not_gone (tied : Tied purge state awaited reports (m :: path) without) :
    ¬ (state = .closed ∨ (state = .closing ∧ (awaited = false ∨ 0 < reports))) :=
  fun gone => List.cons_ne_nil _ _ (tied.gone gone).2

/-- A request taken: whatever the block then holds, the purge is still to come. -/
theorem request_taken (tied : Tied purge state awaited reports (m :: path) without) (request : m ≠ purge) :
    Tied purge state awaited reports path without' where
  gone gone := absurd gone tied.not_gone
  last closing awaits pending := by
    obtain ⟨before, split, absent⟩ := tied.last closing awaits pending
    cases before with
    | nil => exact absurd (List.cons.inj split).1 request
    | cons x before =>
      exact ⟨before, (List.cons.inj split).2, fun mem => absent (List.mem_cons_of_mem _ mem)⟩
  none opened mem := tied.none opened (List.mem_cons_of_mem _ mem)
  report := tied.report

/-- The purge taken: it was the last message of the port, and the report is on its way. -/
theorem purge_taken (tied : Tied purge state awaited reports (purge :: path) without) (nothing : without') :
    Tied purge state awaited (reports + 1) path without' := by
  have pending := tied.not_gone
  have closing : state = .closing := by
    cases state
    · exact absurd (.inl rfl) pending
    · exact absurd List.mem_cons_self (tied.none rfl)
    · rfl
  have awaits : awaited = true := Bool.not_eq_false _ ▸ fun off => pending (.inr ⟨closing, .inl off⟩)
  have quiet : reports = 0 := Nat.eq_zero_of_not_pos fun some => pending (.inr ⟨closing, .inr some⟩)
  obtain ⟨before, split, absent⟩ := tied.last closing awaits quiet
  have empty : path = [] := by
    cases before with
    | nil => exact (List.cons.inj split).2
    | cons x before => exact absurd ((List.cons.inj split).1 ▸ List.mem_cons_self) absent
  subst quiet empty
  exact ⟨fun _ => ⟨nothing, rfl⟩, by simp, by simp, by simp [closing, awaits]⟩

theorem sent (tied : Tied purge state awaited reports path without) {more : List μ} (opened : state = .opened)
    (requests : purge ∉ more) : Tied purge state awaited reports (path ++ more) without := by
  subst opened
  exact ⟨by simp, by simp, by simp [tied.none, requests], tied.report⟩

theorem torn (tied : Tied purge state awaited reports path without) (opened : state = .opened) :
    Tied purge .closing true reports (path ++ [purge]) without := by
  have quiet : reports = 0 := Nat.eq_zero_of_not_pos fun some => by
    simp [opened] at tied
    exact absurd (tied.report.2 some).1 (by simp)
  subst opened quiet
  exact ⟨by simp, fun _ _ _ => ⟨path, rfl, tied.none rfl⟩, by simp, by simp⟩

theorem joined (tied : Tied purge state awaited reports path without) (closed : state = .closed) :
    Tied purge .opened awaited reports path without := by
  have quiet : reports = 0 := Nat.eq_zero_of_not_pos fun some => by
    simp [closed] at tied
    exact absurd (tied.report.2 some).1 (by simp)
  exact ⟨by simp, by simp, by simp [(tied.gone (.inl closed)).2], by simp [quiet]⟩

theorem finished (tied : Tied purge state awaited reports path without) (closing : state = .closing)
    (complete : awaited = false) : Tied purge .closed awaited reports path without := by
  have gone := tied.gone (.inr ⟨closing, .inl complete⟩)
  have quiet : reports = 0 := Nat.eq_zero_of_not_pos fun some => by simp [(tied.report.2 some).2] at complete
  exact ⟨fun _ => gone, by simp, by simp, by simp [quiet]⟩

/-- SU takes the one report on its way. -/
theorem reported (tied : Tied purge state awaited (reports + 1) path without) :
    Tied purge state false reports path without := by
  obtain ⟨closing, awaits⟩ := tied.report.2 (Nat.succ_pos _)
  have gone := tied.gone (.inr ⟨closing, .inr (Nat.succ_pos _)⟩)
  have quiet : reports = 0 := by have := tied.report.1; omega
  exact ⟨fun _ => gone, by simp, by simp [closing], by simp [quiet]⟩

end Tied

/-! ## The messages of one port on a path -/

/-- The oldest message of a path, where it is one of port p, is the oldest of the port's messages. -/
theorem filter_head {μ : Type} {concerns : μ → Bool} {path rest : List μ} {m : μ} (split : path = m :: rest)
    (mine : concerns m = true) : path.filter concerns = m :: rest.filter concerns := by
  rw [split, List.filter_cons_of_pos mine]

theorem filter_other {μ : Type} {concerns : μ → Bool} {path rest : List μ} {m : μ} (split : path = m :: rest)
    (other : concerns m = false) : path.filter concerns = rest.filter concerns := by
  rw [split, List.filter_cons_of_neg (by simp [other])]

theorem count_append_self (l : List Port) (p : Port) : (l ++ [p]).count p = l.count p + 1 := by simp

theorem count_append_other (l : List Port) {p q : Port} (other : p ≠ q) : (l ++ [q]).count p = l.count p := by
  simp [Ne.symm other]

theorem count_cons_other (l : List Port) {p q : Port} (other : p ≠ q) : (q :: l).count p = l.count p := by
  simp [Ne.symm other]

/-! ## A done report of another block -/

/-- A done report taken, as one port sees it: the tie of the view is kept when every move keeps it, and so does the
report, where it is one for the port that SU awaits. -/
theorem SessionUnit.takeDone_keeps {u : SessionUnit} {now : Nat} {block : Block} {p q : Port} {T : PortView → Prop}
    (move : ∀ v v', PortView.Move p v v' → T v → T v')
    (reported : p = q → (u.view p).state = .closing → (u.view p).awaited.has block = true →
      T ((u.view p).reported block p))
    (start : T (u.view p)) : T ((u.takeDone now block q).view p) := by
  by_cases awaits : (u.view q).state = .closing ∧ (u.view q).awaited.has block = true
  · refine PortView.Moves.keeps move (takeDone_moves now awaits.1 awaits.2 p) ?_
    split
    next same =>
      subst same
      exact reported rfl awaits.1 awaits.2
    · exact start
  · rw [takeDone_ignored awaits]
    exact start

/-- A done report taken from the path of the block that the tie is about: where it is one for the port, SU awaits it. -/
theorem SessionUnit.takeDone_taken {u : SessionUnit} {now : Nat} {block : Block} {p q : Port} {T : PortView → Prop}
    (move : ∀ v v', PortView.Move p v v' → T v → T v') (other : p ≠ q → T (u.view p))
    (mine : p = q → ((u.view p).state = .closing ∧ (u.view p).awaited.has block = true) ∧
      T ((u.view p).reported block p)) : T ((u.takeDone now block q).view p) := by
  by_cases same : p = q
  · subst same
    obtain ⟨⟨closing, awaits⟩, reported⟩ := mine rfl
    have moves := takeDone_moves now closing awaits p
    rw [if_pos rfl] at moves
    exact moves.keeps move reported
  · exact takeDone_keeps move (fun same' => absurd same' same) (other same)

/-! ## TT (R70, R92) -/

namespace TriggerTable

/-- The table holds nothing for port p. -/
def Without (t : TriggerTable) (p : Port) : Prop := ∀ i : EntryIndex, heldBy p t.entries[i] = false

theorem setEntry_without {t : TriggerTable} {p : Port} (without : t.Without p) (i : EntryIndex) {e : Entry}
    (other : heldBy p e = false) : (t.setEntry i e).Without p := by
  intro j
  by_cases same : i.val = j.val
  · simp [setEntry, same, other]
  · simpa [setEntry, same] using without j

/-- What a request of port q leaves of the entries: at most one is changed, to FREE or to a booking of q's own, and that
one keeps its conditions (R69, R78 to R84). -/
theorem Asked.entries {bank : Bank} {t t' : TriggerTable} {q : Port} (asked : t.Asked bank q t') :
    t'.toSu = t.toSu ∧ (t'.entries = t.entries ∨ ∃ i : EntryIndex, t'.entries = t.entries.set i none ∨
      ∃ b : Booking, b.owner = q ∧ (t.Sound → b.Sound) ∧ t'.entries = t.entries.set i (some b)) := by
  cases asked with
  | readEntry tag index => unfold TriggerTable.readEntry; split <;> exact ⟨rfl, .inl rfl⟩
  | listOwn tag => exact ⟨rfl, .inl rfl⟩
  | book tag args ranged =>
    unfold TriggerTable.book
    split
    · exact ⟨rfl, .inl rfl⟩
    next a =>
      split
      · exact ⟨rfl, .inl rfl⟩
      split
      · exact ⟨rfl, .inl rfl⟩
      split
      · exact ⟨rfl, .inl rfl⟩
      next i _ =>
        refine ⟨by simp [bookAt, tellLu_eq, answer, setEntry], .inr ⟨i, .inr ⟨newBooking q t.serial a, rfl, fun _ => ?_,
          by simp [bookAt, tellLu_eq, answer, setEntry]⟩⟩⟩
        exact ⟨fun d n => ranged a rfl d n, by simp [newBooking], by simp [newBooking], by simp [newBooking]⟩
  | amend tag index serial args ranged =>
    unfold TriggerTable.amend
    split
    · exact ⟨rfl, .inl rfl⟩
    next a =>
      split
      · exact ⟨rfl, .inl rfl⟩
      next i b found =>
        obtain ⟨-, entry, -, owner⟩ := identify_eq_ok found
        split
        · exact ⟨rfl, .inl rfl⟩
        split
        · exact ⟨rfl, .inl rfl⟩
        refine ⟨rfl, .inr ⟨i, .inr ⟨amended b a, owner, fun sound => ?_, rfl⟩⟩⟩
        obtain ⟨remaining, fired, spent, recovering⟩ := sound i b entry
        refine ⟨fun d n finite => ?_, fired, spent, fun waits once => recovering waits ?_⟩
        · simp only [amended] at finite
          cases mode : b.mode with
          | once => simp [mode] at finite
          | rearm d' r =>
            cases named : a.remaining with
            | none =>
              simp only [mode, named, Option.getD_none, Mode.rearm.injEq] at finite
              exact remaining d' n (by rw [mode, finite.2])
            | some r' =>
              simp only [mode, named, Option.getD_some, Mode.rearm.injEq] at finite
              exact ranged a rfl n (by rw [named, finite.2])
        · cases mode : b.mode with
          | once => rfl
          | rearm d' r => simp [amended, mode] at once
  | cancel tag index serial =>
    unfold TriggerTable.cancel
    split
    · exact ⟨rfl, .inl rfl⟩
    next i b _ =>
      exact ⟨by simp [tellLu_eq, tellNu_eq, answer, setEntry], .inr ⟨i, .inl (by
        simp [tellLu_eq, tellNu_eq, answer, setEntry])⟩⟩
  | suspend tag index serial =>
    unfold TriggerTable.suspend
    split
    · exact ⟨rfl, .inl rfl⟩
    next i b found =>
      obtain ⟨-, entry, -, owner⟩ := identify_eq_ok found
      split
      next armed =>
        refine ⟨rfl, .inr ⟨i, .inr ⟨{ b with state := .suspended .armed }, owner, fun sound => ?_, rfl⟩⟩⟩
        obtain ⟨remaining, fired, -, -⟩ := sound i b entry
        exact ⟨remaining, fired, by simp, by simp⟩
      next recovers =>
        refine ⟨rfl, .inr ⟨i, .inr ⟨{ b with state := .suspended .recovering }, owner, fun sound => ?_, rfl⟩⟩⟩
        obtain ⟨remaining, fired, -, recovering⟩ := sound i b entry
        exact ⟨remaining, fired, by simp, fun _ => recovering (.inl recovers)⟩
      all_goals exact ⟨rfl, .inl rfl⟩
  | resume tag index serial =>
    unfold TriggerTable.resume
    split
    · exact ⟨rfl, .inl rfl⟩
    next i b found =>
      obtain ⟨-, entry, -, owner⟩ := identify_eq_ok found
      split
      next r suspended =>
        refine ⟨rfl, .inr ⟨i, .inr ⟨{ b with state := resumed r }, owner, fun sound => ?_, rfl⟩⟩⟩
        obtain ⟨remaining, fired, -, recovering⟩ := sound i b entry
        refine ⟨remaining, fired, by cases r <;> simp [resumed], fun waits => recovering (.inr ?_)⟩
        cases r
        · simp [resumed] at waits
        · exact suspended
      all_goals exact ⟨rfl, .inl rfl⟩

theorem Asked.without {bank : Bank} {t t' : TriggerTable} {p q : Port} (asked : t.Asked bank q t') (other : p ≠ q)
    (without : t.Without p) : t'.Without p := by
  have set (i : EntryIndex) (e : Entry) (entries : t'.entries = t.entries.set i e) (free : heldBy p e = false) :
      t'.Without p := by
    have := setEntry_without without i free
    intro j
    rw [entries]
    exact this j
  rcases asked.entries.2 with same | ⟨i, freed | ⟨b, owner, -, booked⟩⟩
  · intro j; rw [same]; exact without j
  · exact set i none freed rfl
  · exact set i (some b) booked (by simp [heldBy, owner, Ne.symm other])

theorem purge_without (t : TriggerTable) (p : Port) : (t.purge p).Without p := by
  intro i
  have entry : (t.purge p).entries[i] = if heldBy p t.entries[i] then none else t.entries[i] :=
    Vector.getElem_map ..
  rw [entry]
  split
  · rfl
  next free => simpa using free

theorem purge_without_other {t : TriggerTable} {p : Port} (without : t.Without p) (q : Port) : (t.purge q).Without p := by
  intro i
  have entry : (t.purge q).entries[i] = if heldBy q t.entries[i] then none else t.entries[i] :=
    Vector.getElem_map ..
  rw [entry]
  split
  · rfl
  · exact without i

theorem release_eq (t : TriggerTable) (r : Release) :
    (t.release r).toSu = t.toSu ∧
      ((t.release r).entries = t.entries ∨ (t.release r).entries = t.entries.set r.index none) := by
  unfold release
  repeat' split
  · exact ⟨by simp [tellLu_eq, setEntry], .inr (by simp [tellLu_eq, setEntry])⟩
  all_goals exact ⟨rfl, .inl rfl⟩

theorem release_without {t : TriggerTable} {p : Port} (without : t.Without p) (r : Release) :
    (t.release r).Without p := by
  rcases (release_eq t r).2 with same | freed
  · intro i; rw [same]; exact without i
  · intro i; rw [freed]; exact setEntry_without without r.index (e := none) rfl i

theorem heldBy_rearmedAt (p : Port) (angle : Word) (e : Entry) :
    heldBy p (e.map (Claims.rearmedAt angle)) = heldBy p e := by
  cases e with
  | none => rfl
  | some b =>
    have owner : (Claims.rearmedAt angle b).owner = b.owner := by
      unfold Claims.rearmedAt
      repeat' split
      all_goals rfl
    simp [heldBy, owner]

/-- A firing leaves an entry to its owner, or FREE (R105). -/
theorem takeReport_without {t : TriggerTable} {p : Port} (without : t.Without p) (r : StepReport) :
    (t.takeReport r).Without p := by
  intro i
  obtain ⟨fired, unfired⟩ := t.takeReport_entry r i
  by_cases fires : ∃ b, t.entries[i] = some b ∧ Claims.Fires r b
  · obtain ⟨b, found, fires⟩ := fires
    have held := without i
    rw [found] at held
    rw [fired b found fires, heldBy_rearmedAt, Booking.afterFiring_eq]
    split
    · rfl
    · exact held
  · rw [unfired fun b found fires' => fires ⟨b, found, fires'⟩, heldBy_rearmedAt]
    exact without i

end TriggerTable

/-- How port p's session stands to TT. -/
def State.tableTie (s : State) (p : Port) : Prop :=
  Tied (.purge p) (s.su.view p).state (s.su.view p).awaited.tt (s.tt.toSu.count p) (s.su.view p).tt (s.tt.Without p)

theorem State.tableTie_iff (s : State) (p : Port) : s.tableTie p ↔ s.TableTied p := by
  have mem : SuTtMsg.purge p ∈ s.su.toTt.filter (SuTtMsg.concerns p) ↔ SuTtMsg.purge p ∈ s.su.toTt := by
    simp [SuTtMsg.concerns]
  have none (h : p ∉ s.tt.toSu) := List.count_eq_zero_of_not_mem h
  constructor
  · rintro ⟨gone, last, unsent, report⟩
    refine ⟨fun purged => gone ?_, fun closing awaits quiet => last closing awaits (none quiet),
      fun opened => mem.not.mp (unsent opened), report.1, fun some => report.2 (List.count_pos_iff.mpr some)⟩
    exact purged.imp_right (And.imp_right (Or.imp_right List.count_pos_iff.mpr))
  · rintro ⟨gone, last, unsent, report⟩
    refine ⟨fun purged => gone ?_, fun closing awaits quiet => last closing awaits (List.count_eq_zero.mp quiet),
      fun opened => mem.not.mpr (unsent opened), report.1, fun some => report.2 (List.count_pos_iff.mp some)⟩
    exact purged.imp_right (And.imp_right (Or.imp_right List.count_pos_iff.mp))

/-- Every move of SU keeps the tie of a port to TT. -/
theorem tableTie_move {p : Port} {reports : Nat} {without : Prop} (v v' : PortView) (move : PortView.Move p v v')
    (tied : Tied (.purge p) v.state v.awaited.tt reports v.tt without) :
    Tied (.purge p) v'.state v'.awaited.tt reports v'.tt without := by
  cases move with
  | quiet => exact tied
  | sent tt lu cu opened requests => exact tied.sent opened requests
  | torn opened => exact tied.torn opened
  | joined subs closed => exact tied.joined closed
  | finished closing complete => exact tied.finished closing (by rw [complete]; rfl)

theorem AwaitedDone.without_other (a : AwaitedDone) {block : Block} :
    (block ≠ .tt → (a.without block).tt = a.tt) ∧ (block ≠ .nu → (a.without block).nu = a.nu) ∧
      (block ≠ .lu → (a.without block).lu = a.lu) ∧ (block ≠ .cu → (a.without block).cu = a.cu) := by
  cases block <;> simp [AwaitedDone.without]

theorem tableTie_takeDone {s : State} {p q : Port} {block : Block} (other : block ≠ .tt) (tie : s.tableTie p) :
    (s.takeDone block q).tableTie p :=
  SessionUnit.takeDone_keeps (u := s.su) (now := s.now) (block := block) (p := p)
    (T := fun v => Tied (SuTtMsg.purge p) v.state v.awaited.tt (s.tt.toSu.count p) v.tt (s.tt.Without p)) tableTie_move
    (fun _ _ _ => by
      unfold State.tableTie at tie
      simpa only [PortView.reported, (AwaitedDone.without_other _).1 other] using tie) tie

theorem Effect.keeps_tableTie {s t : State} (effect : Effect s t) (p : Port) (tie : s.tableTie p) : t.tableTie p := by
  cases effect
  case tableAsked r rest tt' path asked =>
    have reports := asked.entries.1
    by_cases mine : r.port = p
    · subst mine
      unfold State.tableTie at tie
      rw [show (s.su.view r.port).tt = _ from filter_head path (by simp [SuTtMsg.concerns])] at tie
      unfold State.tableTie
      rw [reports]
      exact tie.request_taken (by simp)
    · unfold State.tableTie at tie
      rw [show (s.su.view p).tt = _ from filter_other path (by simp [SuTtMsg.concerns, mine])] at tie
      unfold State.tableTie
      rw [reports]
      exact tie.mono (asked.without (Ne.symm mine))
  case tablePurged q rest path =>
    unfold State.tableTie at tie
    by_cases mine : q = p
    · subst mine
      rw [show (s.su.view q).tt = _ from filter_head path (by simp [SuTtMsg.concerns])] at tie
      have reports : (s.tt.purge q).toSu.count q = s.tt.toSu.count q + 1 := count_append_self ..
      unfold State.tableTie
      rw [reports]
      exact tie.purge_taken (TriggerTable.purge_without s.tt q)
    · rw [show (s.su.view p).tt = _ from filter_other path (by simp [SuTtMsg.concerns, mine])] at tie
      have reports : (s.tt.purge q).toSu.count p = s.tt.toSu.count p := count_append_other _ (Ne.symm mine)
      unfold State.tableTie
      rw [reports]
      exact tie.mono fun h => TriggerTable.purge_without_other h q
  case stepReported r rest =>
    have reports : (s.tt.takeReport r).toSu = s.tt.toSu := by rw [TriggerTable.takeReport_eq]
    unfold State.tableTie
    rw [reports]
    exact Tied.mono tie fun h => TriggerTable.takeReport_without h r
  case tableReleased r rest =>
    unfold State.tableTie
    rw [(TriggerTable.release_eq s.tt r).1]
    exact Tied.mono tie fun h => TriggerTable.release_without h r
  case sessionAsked asked => exact (asked.moves p).keeps tableTie_move tie
  case sessionExpires q e runs _ =>
    have opened := ((Session.runningTimer_eq_some _ e).mp runs).1
    exact (SessionUnit.teardown_moves s.su q .expired opened p).keeps tableTie_move tie
  case doneAtTt q rest path =>
    unfold State.tableTie at tie
    rw [path] at tie
    refine SessionUnit.takeDone_taken (u := s.su) (now := s.now) (block := .tt) (p := p) (q := q)
      (T := fun v => Tied (SuTtMsg.purge p) v.state v.awaited.tt (rest.count p) v.tt (s.tt.Without p)) tableTie_move ?_ ?_
    · intro other
      rwa [count_cons_other rest other] at tie
    · rintro rfl
      rw [List.count_cons_self] at tie
      exact ⟨tie.report.2 (Nat.succ_pos _), tie.reported⟩
  case doneAtSi | doneAtNu | doneAtLu | doneAtCu => exact tableTie_takeDone (by simp) tie
  all_goals exact tie

theorem reset_tableTie (timer : Option Nat) (now : Nat) (phase : ResetPhase) (queue : List Instr) (p : Port) :
    (State.resetValues timer now phase queue).tableTie p := by
  have state : ((State.resetValues timer now phase queue).su.view p).state = .closed := by cases p <;> rfl
  unfold State.tableTie
  rw [state]
  exact Tied.reset fun i => by simp [State.resetValues, TriggerTable.reset, TriggerTable.heldBy]

end Sys2Proof.Machine
end

section
/-! The lease and its wait list end before the session of their port (R162, R167): CU stands to SU as TT does. -/

namespace Sys2Proof.Machine

namespace ConfigUnit

/-- Port p neither holds the lease nor waits for it. -/
def Frees (c : ConfigUnit) (p : Port) : Prop := c.holder ≠ some p ∧ p ∉ c.waiting

/-- The lease, its wait list and the done reports of two records are the same. -/
structure SameLease (c c' : ConfigUnit) : Prop where
  holder : c'.holder = c.holder
  waiting : c'.waiting = c.waiting
  toSu : c'.toSu = c.toSu

theorem Frees.same {c c' : ConfigUnit} {p : Port} (frees : c.Frees p) (same : c.SameLease c') : c'.Frees p := by
  unfold Frees
  rw [same.holder, same.waiting]
  exact frees

/-- The lease handed on goes to a waiting port, or to none (R164). -/
theorem Frees.handOn {c : ConfigUnit} {p : Port} (absent : p ∉ c.waiting) : c.handOn.Frees p := by
  rw [handOn_eq]
  refine ⟨fun holds => absent (List.mem_of_mem_head? holds), fun waits => absent (List.mem_of_mem_tail waits)⟩

theorem handOn_toSu (c : ConfigUnit) : c.handOn.toSu = c.toSu := by rw [handOn_eq]

/-! ## The requests about the banks leave the lease as it is (R168, R170 to R174) -/

theorem gated_sameLease {c : ConfigUnit} {p : Port} {tag : Byte} {effect : ConfigUnit → ConfigUnit}
    (same : c.SameLease (effect c)) : c.SameLease (c.gated p tag effect) := by
  unfold gated
  split
  · exact same
  · exact ⟨rfl, rfl, rfl⟩

theorem setStandby_sameLease (c : ConfigUnit) (b : Bank) : c.SameLease (c.setStandby b) := by
  unfold setStandby
  split <;> exact ⟨rfl, rfl, rfl⟩

theorem paramWrite_sameLease (c : ConfigUnit) (p : Port) (tag field : Byte) (value : Word) :
    c.SameLease (c.paramWrite p tag field value) := by
  unfold paramWrite
  repeat' split
  case h_2.isTrue f _ _ =>
    obtain ⟨holder, waiting, toSu⟩ := setStandby_sameLease c (c.standbyBank.setField f value.toInt)
    exact ⟨holder, waiting, toSu⟩
  all_goals exact ⟨rfl, rfl, rfl⟩

theorem paramCopy_sameLease (c : ConfigUnit) (p : Port) (tag : Byte) : c.SameLease (c.paramCopy p tag) := by
  unfold paramCopy
  split
  · exact ⟨rfl, rfl, rfl⟩
  · obtain ⟨holder, waiting, toSu⟩ := setStandby_sameLease c c.activeBank
    exact ⟨holder, waiting, toSu⟩

theorem paramRead_sameLease (c : ConfigUnit) (p : Port) (tag selector field : Byte) :
    c.SameLease (c.paramRead p tag selector field) := by
  unfold paramRead
  repeat' split
  all_goals exact ⟨rfl, rfl, rfl⟩

theorem activate_sameLease (c : ConfigUnit) (p : Port) (tag : Byte) : c.SameLease (c.activate p tag) := by
  unfold activate
  repeat' split
  all_goals exact ⟨rfl, rfl, rfl⟩

theorem forwardGated_sameLease (c : ConfigUnit) (r : Request) : c.SameLease (c.forwardGated r) := by
  unfold forwardGated
  split <;> exact ⟨rfl, rfl, rfl⟩

theorem takeState_sameLease (c : ConfigUnit) (new : LoopState) : c.SameLease (c.takeState new) := by
  cases new <;> exact ⟨rfl, rfl, rfl⟩

theorem takeBoundary_sameLease (c : ConfigUnit) : c.SameLease c.takeBoundary := by
  unfold takeBoundary
  split <;> exact ⟨rfl, rfl, rfl⟩

/-! ## A request of one port, as another sees it -/

theorem leaseTake_frees {c : ConfigUnit} {p q : Port} (other : p ≠ q) (frees : c.Frees p) (tag wait : Byte) :
    (c.leaseTake q tag wait).Frees p := by
  unfold leaseTake
  repeat' split
  · exact frees
  · exact ⟨by simp [answer, setHolder, Ne.symm other], frees.2⟩
  · exact frees
  · exact frees
  · exact ⟨frees.1, by simp [answer, frees.2, other]⟩
  · exact frees

theorem leaseTake_toSu (c : ConfigUnit) (q : Port) (tag wait : Byte) : (c.leaseTake q tag wait).toSu = c.toSu := by
  unfold leaseTake
  repeat' split
  all_goals rfl

theorem leaseDrop_frees {c : ConfigUnit} {p : Port} (frees : c.Frees p) (q : Port) (tag : Byte) :
    (c.leaseDrop q tag).Frees p := by
  unfold leaseDrop
  split
  · exact (Frees.handOn frees.2 : c.handOn.Frees p)
  · exact frees

theorem leaseDrop_toSu (c : ConfigUnit) (q : Port) (tag : Byte) : (c.leaseDrop q tag).toSu = c.toSu := by
  unfold leaseDrop
  split
  · exact handOn_toSu c
  · rfl

theorem leaseCancel_frees {c : ConfigUnit} {p : Port} (frees : c.Frees p) (q : Port) (tag : Byte) :
    (c.leaseCancel q tag).Frees p := by
  unfold leaseCancel
  split
  · exact ⟨frees.1, fun waits => frees.2 (List.mem_of_mem_filter waits)⟩
  · exact frees

theorem leaseCancel_toSu (c : ConfigUnit) (q : Port) (tag : Byte) : (c.leaseCancel q tag).toSu = c.toSu := by
  unfold leaseCancel
  split <;> rfl

/-- A request of one port gives no other the lease or a wait place, but for a port that waits, and no request reports
done. -/
theorem Asked.lease {c c' : ConfigUnit} {q : Port} (asked : c.Asked q c') :
    c'.toSu = c.toSu ∧ ∀ p, p ≠ q → c.Frees p → c'.Frees p := by
  have same (h : c.SameLease c') : c'.toSu = c.toSu ∧ ∀ p, p ≠ q → c.Frees p → c'.Frees p :=
    ⟨h.toSu, fun _ _ frees => frees.same h⟩
  cases asked with
  | take tag wait => exact ⟨leaseTake_toSu .., fun _ other frees => leaseTake_frees other frees ..⟩
  | drop tag => exact ⟨leaseDrop_toSu .., fun _ _ frees => leaseDrop_frees frees ..⟩
  | cancel tag => exact ⟨leaseCancel_toSu .., fun _ _ frees => leaseCancel_frees frees ..⟩
  | write tag field value => exact same (gated_sameLease (paramWrite_sameLease ..))
  | copy tag => exact same (gated_sameLease (paramCopy_sameLease ..))
  | read tag selector field => exact same (paramRead_sameLease ..)
  | activate tag => exact same (gated_sameLease (activate_sameLease ..))
  | forward tag r => exact same (gated_sameLease (forwardGated_sameLease ..))

/-! ## A purge (R167) -/

theorem purge_toSu (c : ConfigUnit) (p : Port) : (c.purge p).toSu = c.toSu ++ [p] := by
  unfold purge
  dsimp only
  split
  · rw [handOn_toSu]
  · rfl

theorem purge_frees {c : ConfigUnit} (sound : c.Sound) (p : Port) : (c.purge p).Frees p := by
  refine ⟨?_, by simp [purge]⟩
  unfold purge
  dsimp only
  split
  next held => exact (Frees.handOn (sound.holder p held)).1
  next free => exact free

theorem purge_frees_other {c : ConfigUnit} {p : Port} (frees : c.Frees p) (q : Port) : (c.purge q).Frees p := by
  have kept (c' : ConfigUnit) (frees : c'.Frees p) :
      ConfigUnit.Frees { c' with waiting := c'.waiting.filter (· ≠ q), toSu := c'.toSu ++ [q] } p :=
    ⟨frees.1, fun waits => frees.2 (List.mem_of_mem_filter waits)⟩
  unfold purge
  dsimp only
  split
  · exact kept _ (Frees.handOn frees.2)
  · exact kept _ frees

end ConfigUnit

/-! ## The tie of a port to CU -/

/-- How port p's session stands to CU. -/
def State.leaseTie (s : State) (p : Port) : Prop :=
  Tied (.purge p) (s.su.view p).state (s.su.view p).awaited.cu (s.cu.toSu.count p) (s.su.view p).cu (s.cu.Frees p)

theorem State.leaseTie_iff (s : State) (p : Port) : s.leaseTie p ↔ s.LeaseTied p := by
  have mem : SuCuMsg.purge p ∈ s.su.toCu.filter (SuCuMsg.concerns p) ↔ SuCuMsg.purge p ∈ s.su.toCu := by
    simp [SuCuMsg.concerns]
  constructor
  · rintro ⟨gone, last, unsent, report⟩
    refine ⟨fun purged => and_assoc.mp (gone ?_),
      fun closing awaits quiet => last closing awaits (List.count_eq_zero_of_not_mem quiet),
      fun opened => mem.not.mp (unsent opened), report.1, fun some => report.2 (List.count_pos_iff.mpr some)⟩
    exact purged.imp_right (And.imp_right (Or.imp_right List.count_pos_iff.mpr))
  · rintro ⟨gone, last, unsent, report⟩
    refine ⟨fun purged => and_assoc.mpr (gone ?_),
      fun closing awaits quiet => last closing awaits (List.count_eq_zero.mp quiet),
      fun opened => mem.not.mpr (unsent opened), report.1, fun some => report.2 (List.count_pos_iff.mp some)⟩
    exact purged.imp_right (And.imp_right (Or.imp_right List.count_pos_iff.mp))

theorem leaseTie_move {p : Port} {reports : Nat} {frees : Prop} (v v' : PortView) (move : PortView.Move p v v')
    (tied : Tied (.purge p) v.state v.awaited.cu reports v.cu frees) :
    Tied (.purge p) v'.state v'.awaited.cu reports v'.cu frees := by
  cases move with
  | quiet => exact tied
  | sent tt lu cu opened _ _ requests => exact tied.sent opened requests
  | torn opened => exact tied.torn opened
  | joined subs closed => exact tied.joined closed
  | finished closing complete => exact tied.finished closing (by rw [complete]; rfl)

theorem leaseTie_takeDone {s : State} {p q : Port} {block : Block} (other : block ≠ .cu) (tie : s.leaseTie p) :
    (s.takeDone block q).leaseTie p :=
  SessionUnit.takeDone_keeps (u := s.su) (now := s.now) (block := block) (p := p)
    (T := fun v => Tied (SuCuMsg.purge p) v.state v.awaited.cu (s.cu.toSu.count p) v.cu (s.cu.Frees p)) leaseTie_move
    (fun _ _ _ => by
      unfold State.leaseTie at tie
      simpa only [PortView.reported, (AwaitedDone.without_other _).2.2.2 other] using tie) tie

theorem leaseTie_same {s : State} {c : ConfigUnit} {p : Port} (tie : s.leaseTie p) (same : s.cu.SameLease c) :
    Tied (SuCuMsg.purge p) (s.su.view p).state (s.su.view p).awaited.cu (c.toSu.count p) (s.su.view p).cu
      (c.Frees p) := by
  rw [same.toSu]
  exact tie.mono fun frees => frees.same same

theorem Effect.keeps_leaseTie {s t : State} (effect : Effect s t) (sound : s.cu.Sound) (p : Port)
    (tie : s.leaseTie p) : t.leaseTie p := by
  cases effect
  case leaseAsked r rest cu' path asked =>
    obtain ⟨reports, frees⟩ := asked.lease
    unfold State.leaseTie at tie ⊢
    rw [reports]
    by_cases mine : r.port = p
    · subst mine
      rw [show (s.su.view r.port).cu = _ from filter_head path (by simp [SuCuMsg.concerns])] at tie
      exact tie.request_taken (by simp)
    · rw [show (s.su.view p).cu = _ from filter_other path (by simp [SuCuMsg.concerns, mine])] at tie
      exact tie.mono (frees p (Ne.symm mine))
  case leasePurged q rest path =>
    unfold State.leaseTie at tie ⊢
    rw [ConfigUnit.purge_toSu]
    by_cases mine : q = p
    · subst mine
      rw [show (s.su.view q).cu = _ from filter_head path (by simp [SuCuMsg.concerns])] at tie
      rw [count_append_self]
      exact tie.purge_taken (ConfigUnit.purge_frees sound q)
    · rw [show (s.su.view p).cu = _ from filter_other path (by simp [SuCuMsg.concerns, mine])] at tie
      rw [count_append_other _ (Ne.symm mine)]
      exact tie.mono fun frees => ConfigUnit.purge_frees_other frees q
  case loopStateTold new rest => exact leaseTie_same (s := s) tie (ConfigUnit.takeState_sameLease s.cu new)
  case boundaryTold rest => exact leaseTie_same (s := s) tie (ConfigUnit.takeBoundary_sameLease s.cu)
  case intakeCleared | loopActs | noticeTold | portTold => exact leaseTie_same tie ⟨rfl, rfl, rfl⟩
  case sessionAsked asked => exact (asked.moves p).keeps leaseTie_move tie
  case sessionExpires q e runs _ =>
    have opened := ((Session.runningTimer_eq_some _ e).mp runs).1
    exact (SessionUnit.teardown_moves s.su q .expired opened p).keeps leaseTie_move tie
  case doneAtCu q rest path =>
    unfold State.leaseTie at tie
    rw [path] at tie
    refine SessionUnit.takeDone_taken (u := s.su) (now := s.now) (block := .cu) (p := p) (q := q)
      (T := fun v => Tied (SuCuMsg.purge p) v.state v.awaited.cu (rest.count p) v.cu (s.cu.Frees p)) leaseTie_move ?_ ?_
    · intro other
      rwa [count_cons_other rest other] at tie
    · rintro rfl
      rw [List.count_cons_self] at tie
      exact ⟨tie.report.2 (Nat.succ_pos _), tie.reported⟩
  case doneAtSi | doneAtTt | doneAtNu | doneAtLu => exact leaseTie_takeDone (by simp) tie
  all_goals exact tie

end Sys2Proof.Machine
end

section
/-! The lines of a port end before its session (R142, R157): the release-all and the references purged reach LU apart, and
the second of the two reports done. -/

namespace Sys2Proof.Machine

/-- How port p's session stands to LU: `awaitsTt` and `awaitsLu` say which done reports SU awaits, `reports` counts those
of LU on their way, `path` holds the port's messages to LU, `nothing` says that the port owns no line, and `taken` that
its mark says a release-all taken. -/
structure LineTie (p : Port) (state : SessionState) (awaitsTt awaitsLu : Bool) (reports : Nat) (path : List SuLuMsg)
    (nothing taken : Prop) : Prop where
  gone : state = .closed ∨ (state = .closing ∧ (awaitsLu = false ∨ 0 < reports)) → nothing ∧ path = [] ∧ ¬ taken
  before : state = .closing → awaitsTt = true → awaitsLu = true ∧ reports = 0 ∧ .releaseAll p ∉ path ∧ ¬ taken
  after : state = .closing → awaitsTt = false → awaitsLu = true → reports = 0 →
    (¬ taken ∧ ∃ before, path = before ++ [.releaseAll p] ∧ .releaseAll p ∉ before) ∨ (taken ∧ nothing ∧ path = [])
  none : state = .opened → .releaseAll p ∉ path ∧ ¬ taken
  report : reports ≤ 1 ∧ (0 < reports → state = .closing ∧ awaitsLu = true)

namespace LineTie

variable {p : Port} {state : SessionState} {awaitsTt awaitsLu : Bool} {reports : Nat} {path : List SuLuMsg}
  {nothing nothing' taken : Prop} {m : SuLuMsg}

theorem reset (owns : nothing) (mark : ¬ taken) : LineTie p .closed awaitsTt awaitsLu 0 [] nothing taken :=
  ⟨fun _ => ⟨owns, rfl, mark⟩, by simp, by simp, by simp, by simp⟩

theorem mono (tie : LineTie p state awaitsTt awaitsLu reports path nothing taken) (h : nothing → nothing') :
    LineTie p state awaitsTt awaitsLu reports path nothing' taken where
  gone gone := (tie.gone gone).imp_left h
  before := tie.before
  after closing tt lu quiet := (tie.after closing tt lu quiet).imp_right fun ⟨mark, none, empty⟩ => ⟨mark, h none, empty⟩
  none := tie.none
  report := tie.report

/-- Where a message is on the path, or the mark says a release-all taken, LU has not ended its part. -/
theorem waits (tie : LineTie p state awaitsTt awaitsLu reports path nothing taken) (busy : path ≠ [] ∨ taken) :
    state ≠ .closed ∧ (state = .closing → awaitsLu = true ∧ reports = 0) := by
  have open_ : ¬ (state = .closed ∨ (state = .closing ∧ (awaitsLu = false ∨ 0 < reports))) := fun gone =>
    busy.elim (fun some => some (tie.gone gone).2.1) (tie.gone gone).2.2
  refine ⟨fun closed => open_ (.inl closed), fun closing => ⟨?_, ?_⟩⟩
  · exact Bool.not_eq_false _ ▸ fun off => open_ (.inr ⟨closing, .inl off⟩)
  · exact Nat.eq_zero_of_not_pos fun some => open_ (.inr ⟨closing, .inr some⟩)

theorem quiet (tie : LineTie p state awaitsTt awaitsLu reports path nothing taken) (other : state ≠ .closing) :
    reports = 0 :=
  Nat.eq_zero_of_not_pos fun some => other (tie.report.2 some).1

/-- A request taken: whatever the port then owns, the release-all is still to come. -/
theorem request_taken (tie : LineTie p state awaitsTt awaitsLu reports (m :: path) nothing taken)
    (request : m ≠ .releaseAll p) : LineTie p state awaitsTt awaitsLu reports path nothing' taken := by
  obtain ⟨not_closed, awaited⟩ := tie.waits (.inl (List.cons_ne_nil _ _))
  refine ⟨?_, fun closing tt => ?_, fun closing tt lu quiet => ?_, fun opened => ?_, tie.report⟩
  · rintro (closed | ⟨closing, off | some⟩)
    · exact absurd closed not_closed
    · simp [(awaited closing).1] at off
    · simp [(awaited closing).2] at some
  · obtain ⟨lu, none, absent, mark⟩ := tie.before closing tt
    exact ⟨lu, none, fun mem => absent (List.mem_cons_of_mem _ mem), mark⟩
  · obtain ⟨mark, before, split, absent⟩ | ⟨-, -, empty⟩ := tie.after closing tt lu quiet
    · cases before with
      | nil => exact absurd (List.cons.inj split).1 request
      | cons x before =>
        exact .inl ⟨mark, before, (List.cons.inj split).2, fun mem => absent (List.mem_cons_of_mem _ mem)⟩
    · exact absurd empty (List.cons_ne_nil _ _)
  · exact ⟨fun mem => (tie.none opened).1 (List.mem_cons_of_mem _ mem), (tie.none opened).2⟩

/-- A release-all that is next on its path: SU has TT's done report and awaits LU's, and nothing comes after it. -/
theorem release_next (tie : LineTie p state awaitsTt awaitsLu reports (.releaseAll p :: path) nothing taken) :
    state = .closing ∧ awaitsTt = false ∧ awaitsLu = true ∧ reports = 0 ∧ path = [] := by
  obtain ⟨not_closed, awaited⟩ := tie.waits (.inl (List.cons_ne_nil _ _))
  have closing : state = .closing := by
    cases state
    · exact absurd rfl not_closed
    · exact absurd List.mem_cons_self (tie.none rfl).1
    · rfl
  obtain ⟨lu, none⟩ := awaited closing
  have tt : awaitsTt = false := Bool.not_eq_true _ ▸ fun on => (tie.before closing on).2.2.1 List.mem_cons_self
  refine ⟨closing, tt, lu, none, ?_⟩
  obtain ⟨-, before, split, absent⟩ | ⟨-, -, empty⟩ := tie.after closing tt lu none
  · cases before with
    | nil => exact (List.cons.inj split).2
    | cons x before => exact absurd ((List.cons.inj split).1 ▸ List.mem_cons_self) absent
  · exact absurd empty (List.cons_ne_nil _ _)

/-- The release-all taken after the references purged: LU reports. -/
theorem release_reported {taken' : Prop}
    (tie : LineTie p state awaitsTt awaitsLu reports (.releaseAll p :: path) nothing taken) (owns : nothing')
    (mark : ¬ taken') : LineTie p state awaitsTt awaitsLu (reports + 1) path nothing' taken' := by
  obtain ⟨rfl, rfl, rfl, rfl, rfl⟩ := tie.release_next
  exact ⟨fun _ => ⟨owns, rfl, mark⟩, by simp, by simp, by simp, by simp⟩

/-- The release-all taken first: LU waits for the references purged. -/
theorem release_awaits {taken' : Prop}
    (tie : LineTie p state awaitsTt awaitsLu reports (.releaseAll p :: path) nothing taken) (owns : nothing')
    (mark : taken') : LineTie p state awaitsTt awaitsLu reports path nothing' taken' := by
  obtain ⟨rfl, rfl, rfl, rfl, rfl⟩ := tie.release_next
  exact ⟨by simp, by simp, fun _ _ _ _ => .inr ⟨mark, owns, rfl⟩, by simp, by simp⟩

/-- The references purged taken after the release-all: LU reports. -/
theorem references_reported {taken' : Prop}
    (tie : LineTie p state awaitsTt awaitsLu reports path nothing taken) (mark : taken) (clear : ¬ taken') :
    LineTie p state awaitsTt awaitsLu (reports + 1) path nothing taken' := by
  obtain ⟨not_closed, awaited⟩ := tie.waits (.inr mark)
  have closing : state = .closing := by
    cases state
    · exact absurd rfl not_closed
    · exact absurd mark (tie.none rfl).2
    · rfl
  subst closing
  obtain ⟨rfl, rfl⟩ := awaited rfl
  have tt : awaitsTt = false := Bool.not_eq_true _ ▸ fun on => (tie.before rfl on).2.2.2 mark
  subst tt
  obtain ⟨off, -⟩ | ⟨-, owns, rfl⟩ := tie.after rfl rfl rfl rfl
  · exact absurd mark off
  · exact ⟨fun _ => ⟨owns, rfl, clear⟩, by simp, by simp, by simp, by simp⟩

theorem sent (tie : LineTie p state awaitsTt awaitsLu reports path nothing taken) {more : List SuLuMsg}
    (opened : state = .opened) (requests : .releaseAll p ∉ more) :
    LineTie p state awaitsTt awaitsLu reports (path ++ more) nothing taken := by
  subst opened
  exact ⟨by simp, by simp, by simp, by simp [tie.none, requests], tie.report⟩

theorem torn (tie : LineTie p state awaitsTt awaitsLu reports path nothing taken) (opened : state = .opened) :
    LineTie p .closing true true reports path nothing taken := by
  subst opened
  obtain rfl := tie.quiet (by simp)
  exact ⟨by simp, fun _ _ => ⟨rfl, rfl, tie.none rfl⟩, by simp, by simp, by simp⟩

theorem joined (tie : LineTie p state awaitsTt awaitsLu reports path nothing taken) (closed : state = .closed) :
    LineTie p .opened awaitsTt awaitsLu reports path nothing taken := by
  subst closed
  obtain rfl := tie.quiet (by simp)
  obtain ⟨-, rfl, mark⟩ := tie.gone (.inl rfl)
  exact ⟨by simp, by simp, by simp, fun _ => ⟨by simp, mark⟩, by simp⟩

theorem finished (tie : LineTie p state awaitsTt awaitsLu reports path nothing taken) (closing : state = .closing)
    (complete : awaitsLu = false) : LineTie p .closed awaitsTt awaitsLu reports path nothing taken := by
  subst closing complete
  obtain rfl : reports = 0 := Nat.eq_zero_of_not_pos fun some => by simpa using (tie.report.2 some).2
  exact ⟨fun _ => tie.gone (.inr ⟨rfl, .inl rfl⟩), by simp, by simp, by simp, by simp⟩

/-- SU takes TT's done report, and sends the release-all. -/
theorem reported_tt (tie : LineTie p state awaitsTt awaitsLu reports path nothing taken) (closing : state = .closing)
    (awaits : awaitsTt = true) : LineTie p state false awaitsLu reports (path ++ [.releaseAll p]) nothing taken := by
  subst closing awaits
  obtain ⟨rfl, rfl, absent, mark⟩ := tie.before rfl rfl
  exact ⟨by simp, by simp, fun _ _ _ _ => .inl ⟨mark, path, rfl, absent⟩, by simp, by simp⟩

/-- SU takes the one report of LU on its way. -/
theorem reported_lu (tie : LineTie p state awaitsTt awaitsLu (reports + 1) path nothing taken) :
    LineTie p state awaitsTt false reports path nothing taken := by
  obtain ⟨closing, -⟩ := tie.report.2 (Nat.succ_pos _)
  subst closing
  obtain rfl : reports = 0 := by have := tie.report.1; omega
  exact ⟨fun _ => tie.gone (.inr ⟨rfl, .inr (by simp)⟩), fun _ tt => by simpa using (tie.before rfl tt).2.1, by simp,
    by simp, by simp⟩

end LineTie

/-! ## LU's operations (R134 to R142) -/

namespace LineUnit

/-- A record of LU that keeps, for port p, its reports and its mark, and gives it no line. -/
structure Spares (p : Port) (u u' : LineUnit) : Prop where
  toSu : u'.toSu = u.toSu
  marks : u'.marks = u.marks
  nothing : u.ownsNothing p → u'.ownsNothing p

theorem spares_refl (p : Port) (u : LineUnit) : Spares p u u := ⟨rfl, rfl, id⟩

/-- A line set to a record that port p does not own more than before. -/
theorem setLine_ownsNothing {u : LineUnit} {p : Port} {l : Line} {r : LineRecord}
    (kept : r.state.owner = some p → (u.lines.get l).state.owner = some p) (nothing : u.ownsNothing p) :
    (u.setLine l r).ownsNothing p := by
  intro l'
  simp only [setLine, PerLine.get_set]
  split
  next same => exact fun owns => nothing l (kept owns)
  · exact nothing l'

theorem setLine_spares {u : LineUnit} {p : Port} {l : Line} {r : LineRecord}
    (kept : r.state.owner = some p → (u.lines.get l).state.owner = some p) : Spares p u (u.setLine l r) :=
  ⟨rfl, rfl, setLine_ownsNothing kept⟩

theorem claim_spares {p q : Port} (other : p ≠ q) (u : LineUnit) (tag : Byte) (l : Line) (pol : Polarity)
    (width : BitVec 8) : Spares p u (u.claim q tag l pol width) := by
  have mine (r : LineRecord) (owner : r.state.owner = some q) : Spares p u (u.setLine l r) :=
    setLine_spares (by simp [owner, Ne.symm other])
  have refused := spares_refl p u
  unfold claim
  dsimp only
  split
  next =>
    obtain ⟨toSu, marks, nothing⟩ := mine { (u.lines.get l).enter (.idle q) pol with width := width, merged := 0 } rfl
    exact ⟨toSu, marks, nothing⟩
  next o _ =>
    split
    · obtain ⟨toSu, marks, nothing⟩ := mine { (u.lines.get l).enter (.idle q) pol with width := width } rfl
      exact ⟨toSu, marks, nothing⟩
    · exact ⟨rfl, rfl, id⟩
  next o e pulsing =>
    split
    · split
      next same _ =>
        obtain ⟨toSu, marks, nothing⟩ :=
          mine { u.lines.get l with width := width } (by simp [pulsing, LineState.owner, same])
        exact ⟨toSu, marks, nothing⟩
      · exact ⟨rfl, rfl, id⟩
    · exact ⟨rfl, rfl, id⟩

/-- A request of one port gives no other a line. -/
theorem Asked.spares {now : Nat} {u u' : LineUnit} {p q : Port} (asked : u.Asked now q u') (other : p ≠ q) :
    Spares p u u' := by
  cases asked with
  | claim tag line polarity width =>
    unfold takeClaim
    repeat' split
    · exact ⟨rfl, rfl, id⟩
    · exact ⟨rfl, rfl, id⟩
    · exact claim_spares other ..
  | release tag line =>
    unfold takeRelease
    dsimp only
    repeat' split
    · exact ⟨rfl, rfl, id⟩
    · exact ⟨rfl, rfl, id⟩
    · exact ⟨rfl, rfl, id⟩
    next l _ _ _ =>
      exact ⟨rfl, rfl, setLine_ownsNothing (r := (u.lines.get l).release)
        (by simp [LineRecord.release_keeps, LineState.owner])⟩
  | pulse tag line =>
    unfold takePulse
    dsimp only
    repeat' split
    · exact ⟨rfl, rfl, id⟩
    · exact ⟨rfl, rfl, id⟩
    next l _ _ =>
      exact ⟨rfl, rfl, setLine_ownsNothing (r := (u.lines.get l).strike now) (by simp [LineRecord.strike_keeps])⟩
  | status tag line =>
    unfold takeStatus
    split <;> exact ⟨rfl, rfl, id⟩

/-- A request leaves the reports and the marks as they are. -/
theorem Asked.reports {now : Nat} {u u' : LineUnit} {q : Port} (asked : u.Asked now q u') :
    u'.toSu = u.toSu ∧ u'.marks = u.marks := by
  cases q
  case p0 => exact ⟨(asked.spares (p := .p1) (by simp)).toSu, (asked.spares (p := .p1) (by simp)).marks⟩
  all_goals exact ⟨(asked.spares (p := .p0) (by simp)).toSu, (asked.spares (p := .p0) (by simp)).marks⟩

/-- Neither a pulse request nor a reference changes an owner (R137, R139). -/
theorem Told.spares {now : Nat} {u u' : LineUnit} (told : u.Told now u') (p : Port) : Spares p u u' := by
  cases told with
  | pulse l q =>
    unfold takePulseRequest
    dsimp only
    split
    · exact setLine_spares (by simp [LineRecord.strike_keeps])
    · exact spares_refl p u
  | added l q => exact setLine_spares id
  | removed l q => exact setLine_spares id

theorem endPulse_spares {u : LineUnit} {l : Line} {q : Port} {e : Nat} (pulsing : (u.lines.get l).state = .pulsing q e)
    (p : Port) : Spares p u (u.endPulse l q) :=
  setLine_spares (by simp [LineRecord.enter, LineState.owner, pulsing])

/-! ## The teardown exchange (R142) -/

/-- LU's record after one of the two messages of the exchange. -/
theorem takeReferencesPurged_eq (u : LineUnit) (p : Port) :
    ∃ lines, (∀ l, lines.get l = { u.lines.get l with refs := (u.lines.get l).refs.set p 0 }) ∧
      u.takeReferencesPurged p = { u with
        lines := lines
        marks := u.marks.set p (if u.marks.get p = .releaseAllTaken then .clear else .referencesPurgedTaken)
        toSu := u.toSu ++ if u.marks.get p = .releaseAllTaken then [p] else [] } := by
  refine ⟨⟨withoutReferences u.lines.trg0 p, withoutReferences u.lines.trg1 p, withoutReferences u.lines.trg2 p,
    withoutReferences u.lines.trg3 p⟩, fun l => by cases l <;> rfl, ?_⟩
  unfold takeReferencesPurged
  cases mark : u.marks.get p <;> simp [mark, done]

theorem takeReleaseAll_eq (u : LineUnit) (p : Port) :
    ∃ lines, (∀ l, lines.get l =
        if (u.lines.get l).state.owner = some p then (u.lines.get l).release else u.lines.get l) ∧
      u.takeReleaseAll p = { u with
        lines := lines
        toTt := u.toTt ++
          (Line.inOrder.filter fun l => (u.lines.get l).state.owner == some p).map fun l => (⟨l, none⟩ : LineOwner)
        marks := u.marks.set p (if u.marks.get p = .referencesPurgedTaken then .clear else .releaseAllTaken)
        toSu := u.toSu ++ if u.marks.get p = .referencesPurgedTaken then [p] else [] } := by
  obtain ⟨lines, fold, each⟩ := releaseOwned_fold p Line.inOrder (by decide) u
  refine ⟨lines, fun l => by simpa [show l ∈ Line.inOrder by cases l <;> decide] using each l, ?_⟩
  unfold takeReleaseAll
  rw [fold]
  cases mark : u.marks.get p <;> simp [mark, done]

end LineUnit

end Sys2Proof.Machine
end

section
/-! The tie of a port to LU through every effect (R142, R157). -/

namespace Sys2Proof.Machine

namespace LineUnit

theorem takeReferencesPurged_nothing {u : LineUnit} {p : Port} (nothing : u.ownsNothing p) (q : Port) :
    (u.takeReferencesPurged q).ownsNothing p := by
  obtain ⟨lines, each, eq⟩ := u.takeReferencesPurged_eq q
  intro l
  rw [eq, show lines.get l = _ from each l]
  exact nothing l

theorem takeReleaseAll_nothing_self (u : LineUnit) (p : Port) : (u.takeReleaseAll p).ownsNothing p := by
  obtain ⟨lines, each, eq⟩ := u.takeReleaseAll_eq p
  intro l
  rw [eq, show lines.get l = _ from each l]
  split
  · simp [LineRecord.release_keeps, LineState.owner]
  · assumption

theorem takeReleaseAll_nothing {u : LineUnit} {p : Port} (nothing : u.ownsNothing p) (q : Port) :
    (u.takeReleaseAll q).ownsNothing p := by
  obtain ⟨lines, each, eq⟩ := u.takeReleaseAll_eq q
  intro l
  rw [eq, show lines.get l = _ from each l]
  split
  · simp [LineRecord.release_keeps, LineState.owner]
  · exact nothing l

/-- The exchange of one port leaves the mark and the reports of another. -/
theorem takeReferencesPurged_other (u : LineUnit) {p q : Port} (other : p ≠ q) :
    (u.takeReferencesPurged q).marks.get p = u.marks.get p ∧
      (u.takeReferencesPurged q).toSu.count p = u.toSu.count p := by
  obtain ⟨lines, -, eq⟩ := u.takeReferencesPurged_eq q
  rw [eq]
  refine ⟨by simp [PerPort.get_set, other], ?_⟩
  dsimp only
  split
  · exact count_append_other _ other
  · simp

theorem takeReleaseAll_other (u : LineUnit) {p q : Port} (other : p ≠ q) :
    (u.takeReleaseAll q).marks.get p = u.marks.get p ∧ (u.takeReleaseAll q).toSu.count p = u.toSu.count p := by
  obtain ⟨lines, -, eq⟩ := u.takeReleaseAll_eq q
  rw [eq]
  refine ⟨by simp [PerPort.get_set, other], ?_⟩
  dsimp only
  split
  · exact count_append_other _ other
  · simp

end LineUnit

/-- How a view of port p stands to a record of LU. -/
def PortView.lineTie (p : Port) (u : LineUnit) (v : PortView) : Prop :=
  LineTie p v.state v.awaited.tt v.awaited.lu (u.toSu.count p) v.lu (u.ownsNothing p) (u.marks.get p = .releaseAllTaken)

/-- How port p's session stands to LU. -/
def State.lineTie (s : State) (p : Port) : Prop := (s.su.view p).lineTie p s.lu

theorem State.lineTie_iff (s : State) (p : Port) : s.lineTie p ↔ s.LineTied p := by
  have mem : SuLuMsg.releaseAll p ∈ s.su.toLu.filter (SuLuMsg.concerns p) ↔ SuLuMsg.releaseAll p ∈ s.su.toLu := by
    simp [SuLuMsg.concerns]
  constructor
  · rintro ⟨gone, before, after, unsent, report⟩
    refine ⟨fun purged => gone ?_, fun closing awaits => ?_,
      fun closing tt lu quiet => after closing tt lu (List.count_eq_zero_of_not_mem quiet),
      fun opened => (unsent opened).imp_left mem.not.mp, report.1, fun some => report.2 (List.count_pos_iff.mpr some)⟩
    · exact purged.imp_right (And.imp_right (Or.imp_right List.count_pos_iff.mpr))
    · obtain ⟨lu, quiet, absent, mark⟩ := before closing awaits
      exact ⟨lu, List.count_eq_zero.mp quiet, mem.not.mp absent, mark⟩
  · rintro ⟨gone, before, after, unsent, report⟩
    refine ⟨fun purged => gone ?_, fun closing awaits => ?_,
      fun closing tt lu quiet => after closing tt lu (List.count_eq_zero.mp quiet),
      fun opened => (unsent opened).imp_left mem.not.mpr, report.1, fun some => report.2 (List.count_pos_iff.mp some)⟩
    · exact purged.imp_right (And.imp_right (Or.imp_right List.count_pos_iff.mp))
    · obtain ⟨lu, quiet, absent, mark⟩ := before closing awaits
      exact ⟨lu, List.count_eq_zero.mpr quiet, mem.not.mpr absent, mark⟩

theorem lineTie_move {p : Port} {u : LineUnit} (v v' : PortView) (move : PortView.Move p v v') (tie : v.lineTie p u) :
    v'.lineTie p u := by
  cases move with
  | quiet => exact tie
  | sent tt lu cu opened _ requests _ => exact LineTie.sent tie opened requests
  | torn opened => exact LineTie.torn tie opened
  | joined subs closed => exact LineTie.joined tie closed
  | finished closing complete => exact LineTie.finished tie closing (by rw [complete]; rfl)

/-- A done report of a block other than LU: TT's sets off the release-all. -/
theorem PortView.lineTie_reported {p : Port} {u : LineUnit} {v : PortView} {block : Block} (other : block ≠ .lu)
    (tie : v.lineTie p u) (closing : v.state = .closing) (awaits : v.awaited.has block = true) :
    (v.reported block p).lineTie p u := by
  by_cases tt : block = .tt
  · subst tt
    exact LineTie.reported_tt tie closing awaits
  · have same : v.reported block p = { v with awaited := v.awaited.without block } := by
      simp [reported, tt]
    rw [same]
    unfold lineTie at tie ⊢
    simpa only [(AwaitedDone.without_other _).1 tt, (AwaitedDone.without_other _).2.2.1 other] using tie

theorem lineTie_takeDone {s : State} {p q : Port} {block : Block} (other : block ≠ .lu) (tie : s.lineTie p) :
    (s.takeDone block q).lineTie p :=
  SessionUnit.takeDone_keeps (u := s.su) (now := s.now) (block := block) (p := p) (T := PortView.lineTie p s.lu)
    lineTie_move (fun _ closing awaits => PortView.lineTie_reported other tie closing awaits) tie

theorem PortView.lineTie_spares {p : Port} {u u' : LineUnit} {v : PortView} (tie : v.lineTie p u)
    (spares : LineUnit.Spares p u u') : v.lineTie p u' := by
  unfold lineTie
  rw [spares.toSu, spares.marks]
  exact LineTie.mono tie spares.nothing

/-- The release-all of port p taken: reported where the references were purged before, and awaiting them otherwise. -/
theorem LineTie.release_taken {p : Port} {v : PortView} {u : LineUnit} {rest : List SuLuMsg}
    (tie : v.lineTie p u) (path : v.lu = .releaseAll p :: rest) :
    PortView.lineTie p (u.takeReleaseAll p) { v with lu := rest } := by
  have nothing := u.takeReleaseAll_nothing_self p
  obtain ⟨lines, -, eq⟩ := u.takeReleaseAll_eq p
  unfold PortView.lineTie at tie
  rw [path] at tie
  by_cases purged : u.marks.get p = .referencesPurgedTaken
  · rw [if_pos purged, if_pos purged] at eq
    unfold PortView.lineTie
    rw [show (u.takeReleaseAll p).toSu.count p = u.toSu.count p + 1 by rw [eq]; exact count_append_self ..]
    exact tie.release_reported nothing (by rw [eq]; simp)
  · rw [if_neg purged, if_neg purged, List.append_nil] at eq
    have mark : (u.takeReleaseAll p).marks.get p = .releaseAllTaken := by rw [eq]; simp
    unfold PortView.lineTie
    rw [show (u.takeReleaseAll p).toSu = u.toSu by rw [eq]]
    exact tie.release_awaits nothing mark

/-- The references of port p purged: reported where the release-all was taken before. -/
theorem LineTie.references_taken {p : Port} {v : PortView} {u : LineUnit} (tie : v.lineTie p u) :
    v.lineTie p (u.takeReferencesPurged p) := by
  obtain ⟨lines, -, eq⟩ := u.takeReferencesPurged_eq p
  have nothing (h : u.ownsNothing p) := u.takeReferencesPurged_nothing h p
  unfold PortView.lineTie at tie ⊢
  by_cases released : u.marks.get p = .releaseAllTaken
  · rw [if_pos released, if_pos released] at eq
    rw [show (u.takeReferencesPurged p).toSu.count p = u.toSu.count p + 1 by rw [eq]; exact count_append_self ..]
    exact (tie.references_reported released (by rw [eq]; simp)).mono nothing
  · rw [if_neg released, if_neg released, List.append_nil] at eq
    rw [show (u.takeReferencesPurged p).toSu = u.toSu by rw [eq],
      show ((u.takeReferencesPurged p).marks.get p = .releaseAllTaken) = (u.marks.get p = .releaseAllTaken) by
        rw [eq]; simp [released]]
    exact tie.mono nothing

theorem Effect.keeps_lineTie {s t : State} (effect : Effect s t) (p : Port) (tie : s.lineTie p) : t.lineTie p := by
  cases effect
  case linesAsked r rest lu' path asked =>
    by_cases mine : r.port = p
    · subst mine
      unfold State.lineTie PortView.lineTie at tie ⊢
      rw [show (s.su.view r.port).lu = _ from filter_head path (by simp [SuLuMsg.concerns])] at tie
      rw [asked.reports.1, asked.reports.2]
      exact tie.request_taken (by simp)
    · unfold State.lineTie PortView.lineTie at tie
      rw [show (s.su.view p).lu = _ from filter_other path (by simp [SuLuMsg.concerns, mine])] at tie
      exact PortView.lineTie_spares tie (asked.spares (Ne.symm mine))
  case linesReleased q rest path =>
    by_cases mine : q = p
    · subst mine
      exact LineTie.release_taken tie (filter_head path (by simp [SuLuMsg.concerns]))
    · obtain ⟨marks, reports⟩ := s.lu.takeReleaseAll_other (Ne.symm mine)
      unfold State.lineTie PortView.lineTie at tie ⊢
      rw [show (s.su.view p).lu = _ from filter_other path (by simp [SuLuMsg.concerns, mine])] at tie
      rw [marks, reports]
      exact tie.mono fun nothing => LineUnit.takeReleaseAll_nothing nothing q
  case linesTold rest lu' told => exact PortView.lineTie_spares tie (told.spares p)
  case referencesPurged q rest =>
    by_cases mine : q = p
    · subst mine
      exact LineTie.references_taken tie
    · obtain ⟨marks, reports⟩ := s.lu.takeReferencesPurged_other (Ne.symm mine)
      unfold State.lineTie PortView.lineTie at tie ⊢
      rw [marks, reports]
      exact tie.mono fun nothing => LineUnit.takeReferencesPurged_nothing nothing q
  case pulseEnds l q e pulsing _ => exact PortView.lineTie_spares tie (LineUnit.endPulse_spares pulsing p)
  case portTold => exact PortView.lineTie_spares tie ⟨rfl, rfl, id⟩
  case lineOwnerTold => exact PortView.lineTie_spares tie ⟨rfl, rfl, id⟩
  case sessionAsked asked => exact (asked.moves p).keeps lineTie_move tie
  case sessionExpires q e runs _ =>
    have opened := ((Session.runningTimer_eq_some _ e).mp runs).1
    exact (SessionUnit.teardown_moves s.su q .expired opened p).keeps lineTie_move tie
  case doneAtLu q rest path =>
    unfold State.lineTie PortView.lineTie at tie
    rw [path] at tie
    refine SessionUnit.takeDone_taken (u := s.su) (now := s.now) (block := .lu) (p := p) (q := q)
      (T := PortView.lineTie p { s.lu with toSu := rest }) lineTie_move ?_ ?_
    · intro other
      rwa [count_cons_other rest other] at tie
    · rintro rfl
      rw [List.count_cons_self] at tie
      refine ⟨tie.report.2 (Nat.succ_pos _), ?_⟩
      have same : (s.su.view p).reported .lu p =
          { s.su.view p with awaited := (s.su.view p).awaited.without .lu } := by simp [PortView.reported]
      rw [same]
      exact tie.reported_lu
  case doneAtSi | doneAtTt | doneAtNu | doneAtCu => exact lineTie_takeDone (by simp) tie
  all_goals exact tie

end Sys2Proof.Machine
end

section
/-! The notices of a port end before its session (R129, R157): the close of the port and TT's purge mark reach NU apart,
and the second of the two reports done. With the ties of TT, LU and CU this settles O59. -/

namespace Sys2Proof.Machine

/-- How port p's session stands to NU: `awaits` says that SU awaits the done report, `reports` counts those on their way,
`path` holds the messages that open or close the port, `opened` is the port's flag at NU, and `marks` says that NU awaits
the purge mark alone. -/
structure NoticeTie (p : Port) (state : SessionState) (awaits : Bool) (reports : Nat) (path : List SuNuMsg)
    (opened marks : Bool) : Prop where
  gone : state = .closed ∨ (state = .closing ∧ (awaits = false ∨ 0 < reports)) →
    opened = false ∧ marks = false ∧ path = []
  last : state = .closing → awaits = true → reports = 0 →
    (marks = false ∧ ∃ before, path = before ++ [.closePort p] ∧ .closePort p ∉ before) ∨
      (marks = true ∧ opened = false ∧ path = [])
  none : state = .opened → .closePort p ∉ path ∧ marks = false
  report : reports ≤ 1 ∧ (0 < reports → state = .closing ∧ awaits = true)

namespace NoticeTie

variable {p : Port} {state : SessionState} {awaits opened marks : Bool} {reports : Nat} {path : List SuNuMsg}

theorem reset : NoticeTie p .closed awaits 0 [] false false :=
  ⟨fun _ => ⟨rfl, rfl, rfl⟩, by simp, by simp, by simp⟩

theorem quiet (tie : NoticeTie p state awaits reports path opened marks) (other : state ≠ .closing) : reports = 0 :=
  Nat.eq_zero_of_not_pos fun some => other (tie.report.2 some).1

/-- Where a message is on the path, or NU awaits the purge mark, NU has not ended its part. -/
theorem waits (tie : NoticeTie p state awaits reports path opened marks) (busy : path ≠ [] ∨ marks = true) :
    state ≠ .closed ∧ (state = .closing → awaits = true ∧ reports = 0) := by
  have open_ : ¬ (state = .closed ∨ (state = .closing ∧ (awaits = false ∨ 0 < reports))) := fun gone =>
    busy.elim (fun some => some (tie.gone gone).2.2) (fun on => by simp [(tie.gone gone).2.1] at on)
  refine ⟨fun closed => open_ (.inl closed), fun closing => ⟨?_, ?_⟩⟩
  · exact Bool.not_eq_false _ ▸ fun off => open_ (.inr ⟨closing, .inl off⟩)
  · exact Nat.eq_zero_of_not_pos fun some => open_ (.inr ⟨closing, .inr some⟩)

/-- The opening of the port taken. -/
theorem open_taken {subs : Subscriptions}
    (tie : NoticeTie p state awaits reports (.openPort p subs :: path) opened marks) :
    NoticeTie p state awaits reports path true false := by
  obtain ⟨not_closed, awaited⟩ := tie.waits (.inl (List.cons_ne_nil _ _))
  refine ⟨?_, fun closing on quiet => ?_, fun opens => ?_, tie.report⟩
  · rintro (closed | ⟨closing, off | some⟩)
    · exact absurd closed not_closed
    · simp [(awaited closing).1] at off
    · simp [(awaited closing).2] at some
  · obtain ⟨-, before, split, absent⟩ | ⟨-, -, empty⟩ := tie.last closing on quiet
    · cases before with
      | nil => simp at split
      | cons x before =>
        exact .inl ⟨rfl, before, (List.cons.inj split).2, fun mem => absent (List.mem_cons_of_mem _ mem)⟩
    · exact absurd empty (List.cons_ne_nil _ _)
  · exact ⟨fun mem => (tie.none opens).1 (List.mem_cons_of_mem _ mem), rfl⟩

/-- A close that is next on its path: SU awaits NU's report, nothing comes after it, and no mark is awaited. -/
theorem close_next (tie : NoticeTie p state awaits reports (.closePort p :: path) opened marks) :
    state = .closing ∧ awaits = true ∧ reports = 0 ∧ path = [] ∧ marks = false := by
  obtain ⟨not_closed, awaited⟩ := tie.waits (.inl (List.cons_ne_nil _ _))
  have closing : state = .closing := by
    cases state
    · exact absurd rfl not_closed
    · exact absurd List.mem_cons_self (tie.none rfl).1
    · rfl
  obtain ⟨on, none⟩ := awaited closing
  obtain ⟨off, before, split, absent⟩ | ⟨-, -, empty⟩ := tie.last closing on none
  · cases before with
    | nil => exact ⟨closing, on, none, (List.cons.inj split).2, off⟩
    | cons x before => exact absurd ((List.cons.inj split).1 ▸ List.mem_cons_self) absent
  · exact absurd empty (List.cons_ne_nil _ _)

/-- The close taken after the purge mark: NU reports. -/
theorem close_reported (tie : NoticeTie p state awaits reports (.closePort p :: path) opened marks) :
    NoticeTie p state awaits (reports + 1) path false marks := by
  obtain ⟨rfl, rfl, rfl, rfl, rfl⟩ := tie.close_next
  exact ⟨fun _ => ⟨rfl, rfl, rfl⟩, by simp, by simp, by simp⟩

/-- The close taken first: NU waits for the purge mark. -/
theorem close_awaits (tie : NoticeTie p state awaits reports (.closePort p :: path) opened marks) :
    NoticeTie p state awaits reports path false true := by
  obtain ⟨rfl, rfl, rfl, rfl, rfl⟩ := tie.close_next
  exact ⟨by simp, fun _ _ _ => .inr ⟨rfl, rfl, rfl⟩, by simp, by simp⟩

/-- The awaited purge mark taken: NU reports. -/
theorem mark_reported (tie : NoticeTie p state awaits reports path opened true) :
    NoticeTie p state awaits (reports + 1) path opened false := by
  obtain ⟨not_closed, awaited⟩ := tie.waits (.inr rfl)
  have closing : state = .closing := by
    cases state
    · exact absurd rfl not_closed
    · simpa using (tie.none rfl).2
    · rfl
  subst closing
  obtain ⟨rfl, rfl⟩ := awaited rfl
  obtain ⟨off, -⟩ | ⟨-, rfl, rfl⟩ := tie.last rfl rfl rfl
  · simp at off
  · exact ⟨fun _ => ⟨rfl, rfl, rfl⟩, by simp, by simp, by simp⟩

theorem torn (tie : NoticeTie p state awaits reports path opened marks) (opens : state = .opened) :
    NoticeTie p .closing true reports (path ++ [.closePort p]) opened marks := by
  subst opens
  obtain rfl := tie.quiet (by simp)
  obtain ⟨absent, rfl⟩ := tie.none rfl
  exact ⟨by simp, fun _ _ _ => .inl ⟨rfl, path, rfl, absent⟩, by simp, by simp⟩

theorem joined (tie : NoticeTie p state awaits reports path opened marks) (subs : Subscriptions)
    (closed : state = .closed) : NoticeTie p .opened awaits reports (path ++ [.openPort p subs]) opened marks := by
  subst closed
  obtain rfl := tie.quiet (by simp)
  obtain ⟨rfl, rfl, rfl⟩ := tie.gone (.inl rfl)
  exact ⟨by simp, by simp, by simp, by simp⟩

theorem finished (tie : NoticeTie p state awaits reports path opened marks) (closing : state = .closing)
    (complete : awaits = false) : NoticeTie p .closed awaits reports path opened marks := by
  subst closing complete
  obtain rfl : reports = 0 := Nat.eq_zero_of_not_pos fun some => by simpa using (tie.report.2 some).2
  exact ⟨fun _ => tie.gone (.inr ⟨rfl, .inl rfl⟩), by simp, by simp, by simp⟩

/-- SU takes the one report of NU on its way. -/
theorem reported (tie : NoticeTie p state awaits (reports + 1) path opened marks) :
    NoticeTie p state false reports path opened marks := by
  obtain ⟨closing, -⟩ := tie.report.2 (Nat.succ_pos _)
  subst closing
  obtain rfl : reports = 0 := by have := tie.report.1; omega
  exact ⟨fun _ => tie.gone (.inr ⟨rfl, .inr (by simp)⟩), by simp, by simp, by simp⟩

end NoticeTie

/-! ## NU's operations (R117 to R129) -/

namespace NoticeUnit

/-- A record of NU whose ports are open as before and await the same purge marks, and which reports nothing more. -/
structure SameDoors (n n' : NoticeUnit) : Prop where
  toSu : n'.toSu = n.toSu
  opened (p : Port) : (n'.ports.get p).opened = (n.ports.get p).opened
  marks (p : Port) : (n'.ports.get p).markAwaited = (n.ports.get p).markAwaited

theorem SameDoors.refl (n : NoticeUnit) : n.SameDoors n := ⟨rfl, fun _ => rfl, fun _ => rfl⟩

theorem SameDoors.trans {a b c : NoticeUnit} (h : a.SameDoors b) (h' : b.SameDoors c) : a.SameDoors c :=
  ⟨h'.toSu.trans h.toSu, fun p => (h'.opened p).trans (h.opened p), fun p => (h'.marks p).trans (h.marks p)⟩

/-- A port's record replaced by one with the same flags. -/
theorem SameDoors.of_set {n n' : NoticeUnit} {p : Port} {r : NoticePort} (toSu : n'.toSu = n.toSu)
    (ports : n'.ports = n.ports.set p r) (opened : r.opened = (n.ports.get p).opened)
    (marks : r.markAwaited = (n.ports.get p).markAwaited) : n.SameDoors n' := by
  refine ⟨toSu, fun q => ?_, fun q => ?_⟩ <;> rw [ports, PerPort.get_set] <;> split <;> simp_all

theorem setPort_sameDoors {n : NoticeUnit} {p : Port} {r : NoticePort} (opened : r.opened = (n.ports.get p).opened)
    (marks : r.markAwaited = (n.ports.get p).markAwaited) : n.SameDoors (n.setPort p r) :=
  .of_set rfl rfl opened marks

theorem commit_sameDoors {n : NoticeUnit} {p : Port} {r : NoticePort} (opened : r.opened = (n.ports.get p).opened)
    (marks : r.markAwaited = (n.ports.get p).markAwaited) : n.SameDoors (n.commit p r) :=
  .of_set rfl rfl opened marks

theorem releaseIfFinal_sameDoors (n : NoticeUnit) (f : Fired) : n.SameDoors (n.releaseIfFinal f) := by
  rw [releaseIfFinal_eq]
  exact ⟨rfl, fun _ => rfl, fun _ => rfl⟩

theorem giveTo_sameDoors (n : NoticeUnit) (p : Port) (x : Notice) : n.SameDoors (n.giveTo p x) := by
  unfold giveTo
  dsimp only
  split
  · exact .refl n
  split
  · exact commit_sameDoors rfl rfl
  · exact setPort_sameDoors rfl rfl

theorem giveSubscribed_sameDoors (n : NoticeUnit) (kind : Subscriptions → Bool) (x : Notice) :
    n.SameDoors (n.giveSubscribed kind x) := by
  unfold giveSubscribed
  generalize Port.inOrder = l
  induction l generalizing n with
  | nil => exact .refl n
  | cons p l ih =>
    rw [List.foldl_cons]
    split
    · exact (giveTo_sameDoors n p x).trans (ih _)
    · exact ih n

theorem Told.sameDoors {n n' : NoticeUnit} (told : n.Told n') : n.SameDoors n' := by
  have copies (c : NoticeCopies) : n.SameDoors { n with copies := c } := ⟨rfl, fun _ => rfl, fun _ => rfl⟩
  cases told with
  | health r => exact (copies _).trans (giveSubscribed_sameDoors ..)
  | loop old new cause stamp step => exact (copies _).trans (giveSubscribed_sameDoors ..)
  | overspeed velocity stamp => exact (copies _).trans (giveSubscribed_sameDoors ..)
  | activation bank => exact (copies _).trans (giveSubscribed_sameDoors ..)
  | lease holder grant =>
    unfold takeLease
    split
    · exact (copies _).trans (giveTo_sameDoors ..)
    all_goals exact copies _
  | fire f =>
    unfold takeFire
    dsimp only
    split
    · exact copies _
    split
    · refine ((copies { n.copies with lastStamp := f.stamp }).trans ?_).trans (releaseIfFinal_sameDoors _ _)
      exact commit_sameDoors rfl rfl
    · exact (copies _).trans (setPort_sameDoors rfl rfl)
  | drop p index serial =>
    unfold takeDrop
    dsimp only
    split
    · exact setPort_sameDoors rfl rfl
    · exact .refl n

theorem pop_sameDoors (n : NoticeUnit) (p : Port) (tag : Byte) : n.SameDoors (n.pop p tag) := by
  have answered {n' : NoticeUnit} (st : Status) (payload : List Byte) (h : n.SameDoors n') :
      n.SameDoors (n'.answer p tag st payload) := ⟨h.toSu, h.opened, h.marks⟩
  unfold pop
  dsimp only
  split
  · exact answered _ _ (.refl n)
  split
  · exact answered _ _ (commit_sameDoors rfl rfl)
  split
  · refine answered _ _ (.trans ?_ (releaseIfFinal_sameDoors _ _))
    exact commit_sameDoors rfl rfl
  · exact answered _ _ (commit_sameDoors rfl rfl)

/-! ## The opening, the close and the purge mark of a port (R128, R129) -/

theorem openPort_self (n : NoticeUnit) (p : Port) (subs : Subscriptions) :
    ((n.openPort p subs).ports.get p).opened = true ∧ ((n.openPort p subs).ports.get p).markAwaited = false := by
  simp [openPort, commit_eq]

theorem openPort_other (n : NoticeUnit) {p q : Port} (other : p ≠ q) (subs : Subscriptions) :
    (n.openPort q subs).ports.get p = n.ports.get p := PerPort.get_set_other _ _ other


theorem closePort_self (n : NoticeUnit) (p : Port) :
    ((n.closePort p).ports.get p).opened = false ∧
      ((n.closePort p).toSu = n.toSu ++ [p] ∧
          ((n.closePort p).ports.get p).markAwaited = (n.ports.get p).markAwaited ∨
        (n.closePort p).toSu = n.toSu ∧ ((n.closePort p).ports.get p).markAwaited = true) := by
  unfold closePort
  dsimp only
  split <;> simp [commit_eq, done, NoticePort.emptied]

theorem takePurgeMark_self (n : NoticeUnit) (p : Port) :
    ((n.takePurgeMark p).ports.get p).opened = (n.ports.get p).opened ∧
      ((n.takePurgeMark p).toSu = n.toSu ∧
          ((n.takePurgeMark p).ports.get p).markAwaited = (n.ports.get p).markAwaited ∨
        (n.ports.get p).markAwaited = true ∧ (n.takePurgeMark p).toSu = n.toSu ++ [p] ∧
          ((n.takePurgeMark p).ports.get p).markAwaited = false) := by
  unfold takePurgeMark
  dsimp only
  split
  · simp [setPort]
  split
  next awaited => simp [setPort, done, awaited]
  · simp

/-- What the opening and the closing of a port and its purge mark leave of another port. -/
theorem closePort_other (n : NoticeUnit) {p q : Port} (other : p ≠ q) :
    (n.closePort q).ports.get p = n.ports.get p ∧ (n.closePort q).toSu.count p = n.toSu.count p := by
  unfold closePort
  dsimp only
  split
  · exact ⟨PerPort.get_set_other _ _ other, count_append_other _ other⟩
  · exact ⟨PerPort.get_set_other _ _ other, rfl⟩

theorem takePurgeMark_other (n : NoticeUnit) {p q : Port} (other : p ≠ q) :
    (n.takePurgeMark q).ports.get p = n.ports.get p ∧ (n.takePurgeMark q).toSu.count p = n.toSu.count p := by
  unfold takePurgeMark
  dsimp only
  split
  · exact ⟨PerPort.get_set_other _ _ other, rfl⟩
  split
  · exact ⟨PerPort.get_set_other _ _ other, count_append_other _ other⟩
  · exact ⟨rfl, rfl⟩

end NoticeUnit

/-! ## The tie of a port to NU -/

/-- How a view of port p stands to a record of NU. -/
def PortView.noticeTie (p : Port) (n : NoticeUnit) (v : PortView) : Prop :=
  NoticeTie p v.state v.awaited.nu (n.toSu.count p) v.nu (n.ports.get p).opened (n.ports.get p).markAwaited

/-- How port p's session stands to NU. -/
def State.noticeTie (s : State) (p : Port) : Prop := (s.su.view p).noticeTie p s.nu

theorem State.noticeTie_iff (s : State) (p : Port) : s.noticeTie p ↔ s.NoticeTied p := by
  have mem : SuNuMsg.closePort p ∈ s.su.toNu.filter (SuNuMsg.moves p) ↔ SuNuMsg.closePort p ∈ s.su.toNu := by
    simp [SuNuMsg.moves]
  constructor
  · rintro ⟨gone, last, unsent, report⟩
    refine ⟨fun purged => gone ?_, fun closing awaits quiet => last closing awaits (List.count_eq_zero_of_not_mem quiet),
      fun opened => (unsent opened).imp_left mem.not.mp, report.1, fun some => report.2 (List.count_pos_iff.mpr some)⟩
    exact purged.imp_right (And.imp_right (Or.imp_right List.count_pos_iff.mpr))
  · rintro ⟨gone, last, unsent, report⟩
    refine ⟨fun purged => gone ?_, fun closing awaits quiet => last closing awaits (List.count_eq_zero.mp quiet),
      fun opened => (unsent opened).imp_left mem.not.mpr, report.1, fun some => report.2 (List.count_pos_iff.mp some)⟩
    exact purged.imp_right (And.imp_right (Or.imp_right List.count_pos_iff.mp))

theorem noticeTie_move {p : Port} {n : NoticeUnit} (v v' : PortView) (move : PortView.Move p v v')
    (tie : v.noticeTie p n) : v'.noticeTie p n := by
  cases move with
  | quiet => exact tie
  | sent => exact tie
  | torn opened => exact NoticeTie.torn tie opened
  | joined subs closed => exact NoticeTie.joined tie subs closed
  | finished closing complete => exact NoticeTie.finished tie closing (by rw [complete]; rfl)

theorem noticeTie_takeDone {s : State} {p q : Port} {block : Block} (other : block ≠ .nu) (tie : s.noticeTie p) :
    (s.takeDone block q).noticeTie p :=
  SessionUnit.takeDone_keeps (u := s.su) (now := s.now) (block := block) (p := p) (T := PortView.noticeTie p s.nu)
    noticeTie_move
    (fun _ _ _ => by
      unfold State.noticeTie PortView.noticeTie at tie
      unfold PortView.noticeTie
      simpa only [PortView.reported, (AwaitedDone.without_other _).2.1 other] using tie) tie

theorem PortView.noticeTie_same {p : Port} {n n' : NoticeUnit} {v : PortView} (tie : v.noticeTie p n)
    (same : n.SameDoors n') : v.noticeTie p n' := by
  unfold noticeTie
  rw [same.toSu, same.opened, same.marks]
  exact tie

theorem PortView.noticeTie_closed {p : Port} {n : NoticeUnit} {v : PortView} {rest : List SuNuMsg}
    (tie : v.noticeTie p n) (path : v.nu = .closePort p :: rest) :
    PortView.noticeTie p (n.closePort p) { v with nu := rest } := by
  unfold noticeTie at tie ⊢
  rw [path] at tie
  obtain ⟨opened, ⟨toSu, marks⟩ | ⟨toSu, marks⟩⟩ := n.closePort_self p
  · rw [opened, toSu, marks, count_append_self]
    exact tie.close_reported
  · rw [opened, toSu, marks]
    exact tie.close_awaits

theorem PortView.noticeTie_marked {p : Port} {n : NoticeUnit} {v : PortView} (tie : v.noticeTie p n) :
    v.noticeTie p (n.takePurgeMark p) := by
  unfold noticeTie at tie ⊢
  obtain ⟨opened, ⟨toSu, marks⟩ | ⟨awaited, toSu, marks⟩⟩ := n.takePurgeMark_self p
  · rw [opened, toSu, marks]
    exact tie
  · rw [awaited] at tie
    rw [opened, toSu, marks, count_append_self]
    exact tie.mark_reported

theorem Effect.keeps_noticeTie {s t : State} (effect : Effect s t) (p : Port) (tie : s.noticeTie p) :
    t.noticeTie p := by
  cases effect
  case noticeTold told => exact PortView.noticeTie_same tie told.sameDoors
  case noticePopped r rest path =>
    have still : s.su.toNu.filter (SuNuMsg.moves p) = _ := filter_other path rfl
    unfold State.noticeTie PortView.noticeTie at tie
    rw [show (s.su.view p).nu = _ from still] at tie
    exact PortView.noticeTie_same tie (NoticeUnit.pop_sameDoors s.nu r.port r.tag)
  case noticeOpened q subs rest path =>
    unfold State.noticeTie PortView.noticeTie at tie ⊢
    by_cases mine : q = p
    · subst mine
      rw [show (s.su.view q).nu = _ from filter_head path (by simp [SuNuMsg.moves])] at tie
      rw [(s.nu.openPort_self q subs).1, (s.nu.openPort_self q subs).2]
      exact tie.open_taken
    · rw [show (s.su.view p).nu = _ from filter_other path (by simp [SuNuMsg.moves, mine])] at tie
      rw [s.nu.openPort_other (Ne.symm mine)]
      exact tie
  case noticeClosed q rest path =>
    by_cases mine : q = p
    · subst mine
      exact PortView.noticeTie_closed tie (filter_head path (by simp [SuNuMsg.moves]))
    · obtain ⟨ports, reports⟩ := s.nu.closePort_other (Ne.symm mine)
      unfold State.noticeTie PortView.noticeTie at tie ⊢
      rw [show (s.su.view p).nu = _ from filter_other path (by simp [SuNuMsg.moves, mine])] at tie
      rw [ports, reports]
      exact tie
  case noticeMarked q rest =>
    by_cases mine : q = p
    · subst mine
      exact PortView.noticeTie_marked tie
    · obtain ⟨ports, reports⟩ := s.nu.takePurgeMark_other (Ne.symm mine)
      unfold State.noticeTie PortView.noticeTie at tie ⊢
      rw [ports, reports]
      exact tie
  case tableReleased | portTold => exact PortView.noticeTie_same tie ⟨rfl, fun _ => rfl, fun _ => rfl⟩
  case sessionAsked asked => exact (asked.moves p).keeps noticeTie_move tie
  case sessionExpires q e runs _ =>
    have opened := ((Session.runningTimer_eq_some _ e).mp runs).1
    exact (SessionUnit.teardown_moves s.su q .expired opened p).keeps noticeTie_move tie
  case doneAtNu q rest path =>
    unfold State.noticeTie PortView.noticeTie at tie
    rw [path] at tie
    refine SessionUnit.takeDone_taken (u := s.su) (now := s.now) (block := .nu) (p := p) (q := q)
      (T := PortView.noticeTie p { s.nu with toSu := rest }) noticeTie_move ?_ ?_
    · intro other
      rwa [count_cons_other rest other] at tie
    · rintro rfl
      rw [List.count_cons_self] at tie
      exact ⟨tie.report.2 (Nat.succ_pos _), tie.reported⟩
  case doneAtSi | doneAtTt | doneAtLu | doneAtCu => exact noticeTie_takeDone (by simp) tie
  all_goals exact tie

/-! ## After reset nothing stands tied, and O59 -/

theorem reset_ties (timer : Option Nat) (now : Nat) (phase : ResetPhase) (queue : List Instr) (p : Port) :
    (State.resetValues timer now phase queue).tableTie p ∧ (State.resetValues timer now phase queue).lineTie p ∧
      (State.resetValues timer now phase queue).leaseTie p ∧ (State.resetValues timer now phase queue).noticeTie p := by
  have state : ((State.resetValues timer now phase queue).su.view p).state = .closed := by cases p <;> rfl
  have port : (State.resetValues timer now phase queue).nu.ports.get p = NoticePort.reset := by cases p <;> rfl
  refine ⟨reset_tableTie .., ?_, ?_, ?_⟩
  · unfold State.lineTie PortView.lineTie
    rw [state]
    refine LineTie.reset (fun l => ?_) ?_
    · cases l <;> simp [State.resetValues, LineUnit.reset, LineRecord.reset, LineState.owner, PerLine.all, PerLine.get]
    · simp [State.resetValues, LineUnit.reset]
  · unfold State.leaseTie
    rw [state]
    exact Tied.reset ⟨by simp [State.resetValues, ConfigUnit.reset], by simp [State.resetValues, ConfigUnit.reset]⟩
  · unfold State.noticeTie PortView.noticeTie
    rw [state, port]
    exact NoticeTie.reset

end Sys2Proof.Machine

namespace Sys2Proof.Machine
open Sys2Proof.Claims

theorem State.entriesOwned_of_ties (s : State) (ties : ∀ p, s.tableTie p) : s.EntriesOwned := by
  intro i b entry closed
  have free := ((ties b.owner).gone (.inl closed)).1 i
  rw [entry] at free
  simp [TriggerTable.heldBy] at free

theorem State.linesOwned_of_ties (s : State) (ties : ∀ p, s.lineTie p) : s.LinesOwned :=
  fun p closed => (LineTie.gone (ties p) (.inl closed)).1

theorem State.leaseOwned_of_ties (s : State) (ties : ∀ p, s.leaseTie p) : s.LeaseOwned :=
  ⟨fun p held closed => ((ties p).gone (.inl closed)).1.1 held,
    fun p waits closed => ((ties p).gone (.inl closed)).1.2 waits⟩

/-- A port closed at NU holds no notice and is owed none. -/
theorem State.noticesOwned_of_ties (s : State) (sound : s.nu.Sound) (ties : ∀ p, s.noticeTie p) : s.NoticesOwned := by
  intro p closed
  obtain ⟨queue, owed, summary, -⟩ := (sound p).closed (NoticeTie.gone (ties p) (.inl closed)).1
  exact ⟨queue, owed, summary⟩

/-- Settles O59: every effect keeps the four ties of a port, each in the form of its own structure, and a session that is
CLOSED stands where nothing is left. -/
theorem holdingsEndBeforeTheirSession : Obligations.HoldingsEndBeforeTheirSession := by
  intro s s' next
  have reset (now : Nat) (queue : List Instr) (p : Port) := reset_ties none now .low queue p
  simp only [← State.tableTie_iff, ← State.lineTie_iff, ← State.leaseTie_iff, ← State.noticeTie_iff]
  refine ⟨fun ties => ?_, fun ties => ?_, fun sound ties => ?_, fun sound ties => ?_⟩
  · have kept := step_keeps (P := fun s => ∀ p, s.tableTie p) (fun now queue p => (reset now queue p).1)
      (fun _ _ _ _ _ ties => ties) (fun _ _ effect ties p => effect.keeps_tableTie p (ties p)) ties next
    exact ⟨kept, s'.entriesOwned_of_ties kept⟩
  · have kept := step_keeps (P := fun s => ∀ p, s.lineTie p) (fun now queue p => (reset now queue p).2.1)
      (fun _ _ _ _ _ ties => ties) (fun _ _ effect ties p => effect.keeps_lineTie p (ties p)) ties next
    exact ⟨kept, s'.linesOwned_of_ties kept⟩
  · obtain ⟨-, kept⟩ := step_keeps (P := fun s => s.cu.Sound ∧ ∀ p, s.leaseTie p)
      (fun now queue => ⟨ConfigUnit.reset_sound, fun p => (reset now queue p).2.2.1⟩) (fun _ _ _ _ _ ties => ties)
      (fun _ _ effect ⟨sound, ties⟩ => ⟨effect.keeps_cu_sound sound, fun p => effect.keeps_leaseTie sound p (ties p)⟩)
      ⟨sound, ties⟩ next
    exact ⟨kept, s'.leaseOwned_of_ties kept⟩
  · obtain ⟨sound', kept⟩ := step_keeps (P := fun s => s.nu.Sound ∧ ∀ p, s.noticeTie p)
      (fun now queue => ⟨NoticeUnit.reset_sound, fun p => (reset now queue p).2.2.2⟩) (fun _ _ _ _ _ ties => ties)
      (fun _ _ effect ⟨sound, ties⟩ => ⟨effect.keeps_nu_sound sound, fun p => effect.keeps_noticeTie p (ties p)⟩)
      ⟨sound, ties⟩ next
    exact ⟨kept, s'.noticesOwned_of_ties sound' kept⟩

end Sys2Proof.Machine
end

section
/-! The machine as a whole: what a step runs, that every command completes, and the reset (sections 1.3 and 11.7). -/

namespace Sys2Proof.Machine

/-- An effect leaves the queue and the place in a reset alone and never turns the timebase back. -/
theorem Effect.frame {s t : State} (effect : Effect s t) :
    t.pending = s.pending ∧ s.now ≤ t.now ∧ t.phase = s.phase := by
  cases effect
  case staleExpires | pulseEnds | sessionExpires => exact ⟨rfl, Nat.le_max_left .., rfl⟩
  all_goals exact ⟨rfl, le_rfl, rfl⟩

/-- Settles O1. -/
theorem stepRunsFrontCommand : Obligations.StepRunsFrontCommand := by
  intro c s rest front
  simp only [step, front]

/-- Settles O2: the three happenings of a reset by their definitions, every other command by its effect. -/
theorem everyCommandCompletes : Obligations.EveryCommandCompletes := by
  intro c s
  by_cases not_reset : c = .reset
  · subst not_reset
    exact ⟨_, rfl, rfl, le_rfl, by simp⟩
  by_cases not_high : c = .resetFoundHigh
  · subst not_high
    refine ⟨_, rfl, ?_⟩
    split <;> simp
  by_cases not_end : c = .resetEnd
  · subst not_end
    refine ⟨_, rfl, ?_⟩
    split <;> simp
  obtain ⟨f, gated⟩ := exec_gated not_reset not_high not_end
  obtain ⟨pending, now, phase⟩ := (exec_effect not_reset not_high not_end (gated s)).frame
  exact ⟨_, gated s, pending, now, fun _ _ _ => phase⟩

/-- Settles O3: every other command is gated by the place in a reset. -/
theorem resetIgnoresInputs : Obligations.ResetIgnoresInputs := by
  intro c s in_reset not_reset not_high not_end
  obtain ⟨f, gated⟩ := exec_gated not_reset not_high not_end
  rw [gated, State.running_of_reset in_reset]

/-- Settles O4: each block's reset value, field by field. -/
theorem resetGivesTheManualsValues : Obligations.ResetGivesTheManualsValues := by
  intro s
  refine ⟨_, rfl, rfl, rfl, rfl, rfl, rfl, fun i => Vector.getElem_replicate .., rfl, rfl, rfl, rfl, rfl, rfl,
    fun p => by cases p <;> rfl, rfl, rfl, rfl, rfl, fun l => by cases l <;> rfl, fun p => by cases p <;> rfl, rfl, rfl,
    rfl, fun p => by cases p <;> rfl, rfl, rfl, rfl, rfl, rfl, rfl, rfl, rfl, rfl, rfl, rfl, rfl, rfl, rfl, rfl, rfl, rfl,
    rfl, rfl, fun p => by cases p <;> rfl⟩

/-- Settles O5: RESET_N low, the start time, and the end of the reset at its last tick. -/
theorem resetRunsToItsEnd : Obligations.ResetRunsToItsEnd := by
  intro s
  refine ⟨_, _, _, rfl, rfl, rfl, ?_, fun u not_low => ?_, fun u not_starting => ?_⟩
  · simp [State.reset, State.resetValues, State.advanceTo, timerEnd, Config.startTime, Config.resetStaleTimeout,
      SampleIntake.reset]
  · cases phase : u.phase <;> simp_all [exec, execResetFoundHigh]
  · cases phase : u.phase <;> simp_all [exec, execResetEnd]

end Sys2Proof.Machine
end

section
/-! Every step keeps the intake, the bookings, the pins and the host ports in order (O56). -/

namespace Sys2Proof.Machine

/-! ## SI (R5, R7, R12, R20) -/

namespace SampleIntake

theorem SameIntake.trans {a b c : SampleIntake} (h : a.SameIntake b) (h' : b.SameIntake c) : a.SameIntake c :=
  ⟨h'.baseline.trans h.baseline, h'.active.trans h.active, h'.reception.trans h.reception,
    h'.staleTimer.trans h.staleTimer⟩

/-- The sticky sets and the health report leave the rest of the intake alone (R24, R25). -/
theorem reportHealth_same (si : SampleIntake) (newly before : CauseSet) :
    si.SameIntake ((si.stick newly).reportHealth before) := by
  unfold reportHealth
  split <;> exact ⟨rfl, rfl, rfl, rfl⟩

theorem Sound.same {i i' : SampleIntake} (sound : i.Sound) (same : i.SameIntake i') : i'.Sound :=
  ⟨by rw [same.baseline, same.active]; exact sound.baseline, by rw [same.reception]; exact sound.clocks⟩

/-- An accepted frame gives a baseline and makes STALE inactive (R9, R20). -/
theorem Sound.accept {i : SampleIntake} (sound : i.Sound) (b : Bank) (now : Nat) (f : SampleFrame) :
    (i.accept b now f).Sound := by
  refine Sound.same ?_ (reportHealth_same _ _ _)
  exact ⟨by simp [judge], sound.clocks⟩

theorem Sound.takeFrame {i : SampleIntake} (sound : i.Sound) (b : Bank) (now : Nat) (r : Reception) :
    (i.takeFrame b now r).Sound := by
  unfold SampleIntake.takeFrame classify
  split
  · split
    · exact ⟨sound.baseline, sound.clocks⟩
    · exact sound.accept ..
  · exact ⟨sound.baseline, sound.clocks⟩

/-- An expiry that makes STALE active loses the baseline (R12). -/
theorem Sound.expire {i : SampleIntake} (sound : i.Sound) (b : Bank) (now : Nat) : (i.expire b now).Sound := by
  cases stale : i.active.stale with
  | true =>
    rw [expire_of_stale b now stale]
    exact ⟨sound.baseline, sound.clocks⟩
  | false =>
    rw [expire_of_not_stale b now stale]
    exact ⟨by simp, sound.clocks⟩

theorem reset_sound (timer : Option Nat) : (SampleIntake.reset timer).Sound :=
  ⟨by simp [SampleIntake.reset], by simp [SampleIntake.reset]⟩

end SampleIntake

theorem Effect.keeps_si_sound {s t : State} (effect : Effect s t) (sound : s.si.Sound) : t.si.Sound := by
  cases effect
  case frameOpens => exact ⟨sound.baseline, Nat.zero_le _⟩
  case frameTaken levels opened =>
    have clocks := (Reception.clock_counts levels s.si.reception sound.clocks).1
    have idle : SampleIntake.Sound { s.si with
        reception := { levels.foldl Reception.clock s.si.reception with inFrame := false } } :=
      ⟨sound.baseline, clocks.trans_le (Nat.min_le_left ..)⟩
    exact idle.takeFrame ..
  case staleExpires => exact sound.expire ..
  case intakeAsked same => exact sound.same same
  case intakeCleared same => exact sound.same same
  case loopActs | noticeTold | doneAtSi | portTold => exact ⟨sound.baseline, sound.clocks⟩
  all_goals exact sound

/-! ## TT (R69, R71, R105) -/

namespace Booking

/-- A firing keeps the conditions of a booking (R102, R105). -/
theorem Sound.afterFiring {b : Booking} (sound : b.Sound) {r : StepReport} {b' : Booking}
    (left : b.afterFiring r.stamp = some b') : b'.Sound := by
  have counted : ¬ satAdd16 b.firedTotal 1 = 0#16 := fun zero => by
    have := congrArg BitVec.toNat zero
    rw [satAdd16_toNat] at this
    simp at this
  unfold Booking.afterFiring at left
  cases next : b.mode.afterFiring with
  | none =>
    rw [next] at left
    dsimp only at left
    split at left
    next notifies =>
      cases left
      exact ⟨sound.remaining, by simp [Booking.counted, counted], fun _ => notifies, by simp⟩
    · cases left
  | some m =>
    rw [next] at left
    cases left
    refine ⟨fun d n finite => ?_, by simp [Booking.counted, counted], by simp, fun _ => ?_⟩
    · dsimp only at finite
      subst finite
      unfold Mode.afterFiring at next
      split at next
      · cases next
      · cases next
      next n₀ not_one more =>
        cases next
        exact fun zero => not_one (sub_eq_zero.mp zero)
      · cases next
    · rintro rfl
      unfold Mode.afterFiring at next
      split at next <;> cases next

theorem Sound.rearmedAt {b : Booking} (sound : b.Sound) (angle : Word) : (Claims.rearmedAt angle b).Sound := by
  unfold Claims.rearmedAt
  repeat' split
  · exact ⟨sound.remaining, sound.fired, by simp, by simp⟩
  all_goals exact sound

end Booking

namespace TriggerTable

theorem Sound.set {t t' : TriggerTable} (sound : t.Sound) {i : EntryIndex} {e : Entry}
    (entries : t'.entries = t.entries.set i e) (booked : ∀ b, e = some b → b.Sound) : t'.Sound := by
  intro j b found
  rw [entries] at found
  by_cases same : i.val = j.val
  · exact booked b (by simpa [same] using found)
  · exact sound j b (by simpa [same] using found)

theorem Sound.asked {bank : Bank} {t t' : TriggerTable} {q : Port} (sound : t.Sound) (asked : t.Asked bank q t') :
    t'.Sound := by
  rcases asked.entries.2 with same | ⟨i, freed | ⟨b, -, booked, entries⟩⟩
  · intro j b found
    rw [same] at found
    exact sound j b found
  · exact sound.set freed (by simp)
  · exact sound.set entries (by rintro _ ⟨⟩; exact booked sound)

theorem Sound.purge {t : TriggerTable} (sound : t.Sound) (p : Port) : (t.purge p).Sound := by
  intro i b found
  have entry : (t.purge p).entries[i] = if heldBy p t.entries[i] then none else t.entries[i] :=
    Vector.getElem_map ..
  rw [entry] at found
  split at found
  · cases found
  · exact sound i b found

theorem Sound.release {t : TriggerTable} (sound : t.Sound) (r : Release) : (t.release r).Sound := by
  rcases (release_eq t r).2 with same | freed
  · intro j b found
    rw [same] at found
    exact sound j b found
  · exact sound.set freed (by simp)

theorem Sound.takeReport {t : TriggerTable} (sound : t.Sound) (r : StepReport) : (t.takeReport r).Sound := by
  intro i b found
  obtain ⟨fired, unfired⟩ := t.takeReport_entry r i
  by_cases fires : ∃ b, t.entries[i] = some b ∧ Claims.Fires r b
  · obtain ⟨b₀, before, fires⟩ := fires
    rw [fired b₀ before fires, Option.map_eq_some_iff] at found
    obtain ⟨b₁, left, rfl⟩ := found
    exact ((sound i b₀ before).afterFiring left).rearmedAt _
  · rw [unfired fun b found fires' => fires ⟨b, found, fires'⟩, Option.map_eq_some_iff] at found
    obtain ⟨b₁, before, rfl⟩ := found
    exact (sound i b₁ before).rearmedAt _

theorem reset_sound : TriggerTable.reset.Sound := by
  intro i b found
  simp [TriggerTable.reset] at found

end TriggerTable

theorem Effect.keeps_tt_sound {s t : State} (effect : Effect s t) (sound : s.tt.Sound) : t.tt.Sound := by
  cases effect
  case tableAsked asked => exact sound.asked asked
  case tablePurged => exact sound.purge _
  case tableReleased => exact sound.release _
  case stepReported => exact sound.takeReport _
  all_goals exact sound

/-! ## LU (R132, R133) -/

/-- A line whose pin follows its state and polarity, with a width an owner can have. -/
def LineRecord.Driven (r : LineRecord) : Prop := r.pin = driveOf r.state r.polarity ∧ r.width ≠ 0

namespace LineRecord

theorem Driven.enter {r : LineRecord} (driven : r.Driven) (st : LineState) (pol : Polarity) : (r.enter st pol).Driven :=
  ⟨rfl, driven.2⟩

theorem Driven.strike {r : LineRecord} (driven : r.Driven) (now : Nat) : (r.strike now).Driven := by
  unfold LineRecord.strike
  split
  · exact driven
  · exact driven.enter ..
  · exact ⟨rfl, driven.2⟩

end LineRecord

namespace LineUnit

theorem Sound.setLine {u : LineUnit} (sound : u.Sound) (l : Line) {r : LineRecord} (driven : r.Driven) :
    (u.setLine l r).Sound := by
  intro l'
  simp only [LineUnit.setLine, PerLine.get_set]
  split
  · exact driven
  · exact sound l'

/-- The width of a claim is judged before the claim (R134). -/
theorem claimArgs_ok {polarity width : Byte} {pol : Polarity} (passed : claimArgs polarity width = .ok pol) :
    width ≠ 0 := by
  unfold claimArgs at passed
  repeat' split at passed
  · cases passed
  · cases passed
  · assumption

theorem Sound.claim {u : LineUnit} (sound : u.Sound) (p : Port) (tag : Byte) (l : Line) (pol : Polarity)
    {width : BitVec 8} (positive : width ≠ 0) : (u.claim p tag l pol width).Sound := by
  have driven : (u.lines.get l).Driven := sound l
  unfold LineUnit.claim
  dsimp only
  split
  · exact sound.setLine l (r := { (u.lines.get l).enter (.idle p) pol with width := width, merged := 0 }) ⟨rfl, positive⟩
  · split
    · exact sound.setLine l (r := { (u.lines.get l).enter (.idle p) pol with width := width }) ⟨rfl, positive⟩
    · exact sound
  · split
    · split
      · exact sound.setLine l (r := { u.lines.get l with width := width }) ⟨driven.1, positive⟩
      · exact sound
    · exact sound

theorem Sound.asked {now : Nat} {u u' : LineUnit} {p : Port} (sound : u.Sound) (asked : u.Asked now p u') :
    u'.Sound := by
  cases asked with
  | claim tag line polarity width =>
    unfold takeClaim
    split
    · exact sound
    split
    · exact sound
    next passed => exact sound.claim _ _ _ _ (claimArgs_ok passed)
  | release tag line =>
    unfold takeRelease
    dsimp only
    repeat' split
    · exact sound
    · exact sound
    · exact sound
    next l _ _ _ => exact sound.setLine l (LineRecord.Driven.enter (sound l) .unowned _)
  | pulse tag line =>
    unfold takePulse
    dsimp only
    repeat' split
    · exact sound
    · exact sound
    next l _ _ => exact sound.setLine l (LineRecord.Driven.strike (sound l) now)
  | status tag line =>
    unfold takeStatus
    split <;> exact sound

theorem Sound.told {now : Nat} {u u' : LineUnit} (sound : u.Sound) (told : u.Told now u') : u'.Sound := by
  cases told with
  | pulse l p =>
    unfold takePulseRequest
    dsimp only
    split
    · exact sound.setLine l (LineRecord.Driven.strike (sound l) now)
    · exact sound
  | added l p => exact sound.setLine l ⟨(sound l).1, (sound l).2⟩
  | removed l p => exact sound.setLine l ⟨(sound l).1, (sound l).2⟩

theorem Sound.takeReleaseAll {u : LineUnit} (sound : u.Sound) (p : Port) : (u.takeReleaseAll p).Sound := by
  obtain ⟨lines, each, eq⟩ := u.takeReleaseAll_eq p
  intro l
  rw [eq, show lines.get l = _ from each l]
  split
  · exact LineRecord.Driven.enter (sound l) .unowned _
  · exact sound l

theorem Sound.takeReferencesPurged {u : LineUnit} (sound : u.Sound) (p : Port) : (u.takeReferencesPurged p).Sound := by
  obtain ⟨lines, each, eq⟩ := u.takeReferencesPurged_eq p
  intro l
  rw [eq, show lines.get l = _ from each l]
  exact sound l

theorem reset_sound : LineUnit.reset.Sound := by
  intro l
  cases l <;> exact ⟨rfl, by decide⟩

end LineUnit

theorem Effect.keeps_lu_sound {s t : State} (effect : Effect s t) (sound : s.lu.Sound) : t.lu.Sound := by
  cases effect
  case linesAsked asked => exact sound.asked asked
  case linesReleased => exact sound.takeReleaseAll _
  case linesTold told => exact sound.told told
  case referencesPurged => exact sound.takeReferencesPurged _
  case pulseEnds l p e _ _ => exact sound.setLine l (LineRecord.Driven.enter (sound l) (.idle p) _)
  all_goals exact sound

/-! ## The host ports (R181, R182) -/

namespace HostPort

theorem Sound.clock {h : HostPort} (sound : h.Sound) (level : Bool) : (h.clock level).Sound := by
  unfold HostPort.clock
  split
  · exact sound
  next t open_ =>
    refine ⟨?_, by simp⟩
    rintro _ ⟨⟩
    have bound := sound.received t open_
    unfold Transaction.clock
    dsimp only
    split
    · dsimp only
      split
      next room =>
        have room : t.received.length < 16 := room
        simpa using room
      · exact bound
    · exact bound

theorem Sound.clocks {h : HostPort} (sound : h.Sound) (levels : List Bool) : (levels.foldl HostPort.clock h).Sound := by
  induction levels generalizing h with
  | nil => exact sound
  | cons level levels ih => exact ih (sound.clock level)

theorem fall_sound (h : HostPort) : h.fall.Sound :=
  ⟨by rintro t ⟨⟩; simp, by simp [fall]⟩

theorem rise_sound (h : HostPort) (p : Port) (t : Transaction) : (h.rise p t).Sound := by
  obtain ⟨closed, highZ⟩ : (h.rise p t).transaction = none ∧ (h.rise p t).sdo = .highZ := by
    unfold rise
    dsimp only
    repeat' split
    all_goals exact ⟨rfl, rfl⟩
  exact ⟨by simp [closed], by simp [closed, highZ]⟩

theorem reset_sound : HostPort.reset.Sound := ⟨by simp [HostPort.reset], by simp [HostPort.reset]⟩

end HostPort

theorem setHp_sound {s : State} (sound : ∀ p, (s.hp.get p).Sound) (q : Port) {h : HostPort} (port : h.Sound) (p : Port) :
    ((s.hp.set q h).get p).Sound := by
  rw [PerPort.get_set]
  split
  · exact port
  · exact sound p

theorem Effect.keeps_hp_sound {s t : State} (effect : Effect s t) (sound : ∀ p, (s.hp.get p).Sound) :
    ∀ p, (t.hp.get p).Sound := by
  cases effect
  case portFalls q => exact setHp_sound sound q (HostPort.fall_sound _)
  case portRises q levels t open_ => exact setHp_sound sound q (HostPort.rise_sound ..)
  case sessionAsked q _ _ _ _ => exact setHp_sound sound q ⟨(sound q).received, (sound q).sdo⟩
  case portTold q h _ _ _ _ _ _ _ transaction sdo =>
    refine setHp_sound sound q ⟨?_, ?_⟩
    · rw [transaction]; exact (sound q).received
    · rw [transaction, sdo]; exact (sound q).sdo
  all_goals exact sound

/-- Settles O56: every effect keeps each of the four, and reset makes them so. -/
theorem intakeTableLinesAndPortsStaySound : Obligations.IntakeTableLinesAndPortsStaySound := by
  intro s s' next
  refine ⟨fun start => ?_, fun start => ?_, fun start => ?_, fun start => ?_⟩
  · exact step_keeps (P := fun s => s.si.Sound) (fun _ _ => SampleIntake.reset_sound _)
      (fun _ _ _ _ _ sound => ⟨sound.baseline, sound.clocks⟩) (fun _ _ effect sound => effect.keeps_si_sound sound) start
      next
  · exact step_keeps (P := fun s => s.tt.Sound) (fun _ _ => TriggerTable.reset_sound) (fun _ _ _ _ _ sound => sound)
      (fun _ _ effect sound => effect.keeps_tt_sound sound) start next
  · exact step_keeps (P := fun s => s.lu.Sound) (fun _ _ => LineUnit.reset_sound) (fun _ _ _ _ _ sound => sound)
      (fun _ _ effect sound => effect.keeps_lu_sound sound) start next
  · refine step_keeps (P := fun s => ∀ p, (s.hp.get p).Sound) (fun _ _ p => ?_) (fun _ _ _ _ _ sound => sound)
      (fun _ _ effect sound => effect.keeps_hp_sound sound) start next
    simp only [State.resetValues, PerPort.get_all]
    exact HostPort.reset_sound

end Sys2Proof.Machine
end

section
/-! Every step keeps the session records in shape, and no timer expires late (O58); and the state after reset meets every
condition (O60). -/

namespace Sys2Proof.Machine

/-! ## What SU does to one session record (R149 to R157) -/

/-- A session record as SU changes it at tick now. -/
inductive Session.Change (now : Nat) (r : Session) : Session → Prop
  | heard : Change now r (r.heard now)
  | torn (held : Option HeldJoin) (cause : CloseCause) : r.state = .opened →
      Change now r ({ r with held := held }.torn cause)
  | joined (timeout : Word) : r.state = .closed → Change now r (r.joined now timeout)
  | reported (awaited : AwaitedDone) : r.state = .closing → awaited ≠ AwaitedDone.none →
      Change now r { r with awaited := awaited }
  | closed : r.state = .closing → r.held = none → Change now r { r with awaited := AwaitedDone.none, state := .closed }
  | rejoined (timeout : Word) : r.state = .closing →
      Change now r ({ r with awaited := AwaitedDone.none, state := .closed }.joined now timeout)

/-- A chain of changes at one tick. -/
abbrev Session.Changes (now : Nat) : Session → Session → Prop := Relation.ReflTransGen (Session.Change now)

theorem Session.Changes.keeps {now : Nat} {P : Session → Prop} (change : ∀ r r', Session.Change now r r' → P r → P r')
    {r r' : Session} (changes : Session.Changes now r r') (start : P r) : P r' := by
  induction changes with
  | refl => exact start
  | tail _ last ih => exact change _ _ last ih

namespace SessionUnit

/-- One record replaced by a change of it. -/
theorem changes_of_set {now : Nat} {u u' : SessionUnit} {p : Port} {r : Session}
    (sessions : u'.sessions = u.sessions.set p r) (change : Session.Changes now (u.sessions.get p) r) (q : Port) :
    Session.Changes now (u.sessions.get q) (u'.sessions.get q) := by
  rw [sessions, PerPort.get_set]
  split
  next same => subst same; exact change
  · exact .refl

theorem hear_changes (u : SessionUnit) (now : Nat) (p q : Port) :
    Session.Changes now (u.sessions.get q) ((u.hear now p).sessions.get q) :=
  changes_of_set rfl (.single .heard) q

theorem teardown_changes (u : SessionUnit) (now : Nat) (p : Port) (cause : CloseCause)
    (opened : (u.sessions.get p).state = .opened) (q : Port) :
    Session.Changes now (u.sessions.get q) ((u.teardown p cause).sessions.get q) :=
  changes_of_set rfl (.single (.torn (u.sessions.get p).held cause opened)) q

theorem join_changes (u : SessionUnit) (now : Nat) (p : Port) (tag : Byte) (timeout : Word) (subs : Byte)
    (not_closing : (u.sessions.get p).state ≠ .closing) (q : Port) :
    Session.Changes now (u.sessions.get q) ((u.join now p tag timeout subs).sessions.get q) := by
  unfold join
  split
  · exact .refl
  next s _ =>
    split
    next opened =>
      refine changes_of_set (p := p) ?_ (.single (.torn (some ⟨timeout, s, tag⟩) .rejoined opened)) q
      simp [teardown, setSession]
    next closed =>
      rw [openSession_eq]
      exact changes_of_set rfl (.single (.joined timeout closed)) q
    next closing => exact absurd closing not_closing

theorem forward_sessions (u : SessionUnit) (r : Request) : (u.forward r).sessions = u.sessions := by
  unfold forward
  split <;> rfl

theorem Asked.changes {now : Nat} {u u' : SessionUnit} {r : Request} (asked : u.Asked now r u') (q : Port) :
    Session.Changes now (u.sessions.get q) (u'.sessions.get q) := by
  have heard := hear_changes u now r.port q
  have state : ((u.hear now r.port).sessions.get r.port).state = (u.sessions.get r.port).state :=
    congrArg PortView.state (view_hear u now r.port r.port)
  cases asked with
  | refused => exact .refl
  | answered => exact heard
  | forwarded admitted owner => rw [forward_sessions]; exact heard
  | joined timeout subs body admitted =>
    refine heard.trans (join_changes _ now r.port r.tag timeout subs ?_ q)
    rw [state]
    intro closing
    rcases Session.gate_eq_none admitted with opened | ⟨closed, -⟩ | body' | body'
    · exact SessionState.noConfusion (opened.symm.trans closing)
    · exact SessionState.noConfusion (closed.symm.trans closing)
    all_goals exact ReqBody.noConfusion (body.symm.trans body')
  | left body admitted =>
    refine heard.trans (teardown_changes (u.hear now r.port) now r.port .left ?_ q)
    rw [state]
    rcases Session.gate_eq_none admitted with opened | ⟨-, t, x, body'⟩ | body' | body'
    · exact opened
    all_goals exact ReqBody.noConfusion (body.symm.trans body')

theorem finish_sessions (u : SessionUnit) (now : Nat) (p : Port) :
    (u.finish now p).sessions = u.sessions.set p (match (u.sessions.get p).held with
      | none => { u.sessions.get p with state := .closed }
      | some j => { u.sessions.get p with state := .closed }.joined now j.timeout) := by
  unfold finish
  simp only [setSession, PerPort.get_set_self]
  cases (u.sessions.get p).held with
  | none => rfl
  | some j => simp [openSession_eq]

theorem takeDone_changes (u : SessionUnit) (now : Nat) (block : Block) (p q : Port) :
    Session.Changes now (u.sessions.get q) ((u.takeDone now block p).sessions.get q) := by
  unfold takeDone
  dsimp only
  split
  next awaits =>
    obtain ⟨closing, -⟩ := awaits
    split
    next complete =>
      refine changes_of_set (p := p)
        (r := match (u.sessions.get p).held with
          | none => { u.sessions.get p with awaited := AwaitedDone.none, state := .closed }
          | some j => { u.sessions.get p with awaited := AwaitedDone.none, state := .closed }.joined now j.timeout)
        ?_ ?_ q
      · rw [finish_sessions]
        split <;> simp [setSession, complete]
      · split
        next none => exact .single (.closed closing none)
        next j _ => exact .single (.rejoined j.timeout closing)
    next more =>
      refine changes_of_set (p := p) ?_ (.single (.reported _ closing more)) q
      split <;> rfl
  · exact .refl

end SessionUnit

/-- What the changes of a record at the present tick keep, every effect keeps. -/
theorem Effect.keeps_sessions {P : Nat → Session → Prop}
    (change : ∀ now r r', Session.Change now r r' → P now r → P now r') {s t : State} (effect : Effect s t)
    (start : ∀ p, P s.now (s.su.sessions.get p)) : ∀ p, P s.now (t.su.sessions.get p) := by
  cases effect
  case sessionAsked asked => exact fun p => (asked.changes p).keeps (change _) (start p)
  case sessionExpires q e runs _ =>
    have opened := ((Session.runningTimer_eq_some _ e).mp runs).1
    exact fun p => (SessionUnit.teardown_changes s.su s.now q .expired opened p).keeps (change _) (start p)
  case doneAtSi q _ _ => exact fun p => (s.su.takeDone_changes s.now .si q p).keeps (change _) (start p)
  case doneAtTt q _ _ => exact fun p => (s.su.takeDone_changes s.now .tt q p).keeps (change _) (start p)
  case doneAtNu q _ _ => exact fun p => (s.su.takeDone_changes s.now .nu q p).keeps (change _) (start p)
  case doneAtLu q _ _ => exact fun p => (s.su.takeDone_changes s.now .lu q p).keeps (change _) (start p)
  case doneAtCu q _ _ => exact fun p => (s.su.takeDone_changes s.now .cu q p).keeps (change _) (start p)
  all_goals exact start

/-! ## The shape of a session record (R145, R146, R149) -/

namespace Session

theorem timerFrom_running (now : Nat) (timeout : Word) : (∃ t, timerFrom now timeout = some t) ↔ timeout ≠ 0 := by
  unfold timerFrom
  split <;> simp_all

theorem timerFrom_ahead {now t : Nat} {timeout : Word} (runs : timerFrom now timeout = some t) : now ≤ t := by
  unfold timerFrom timerEnd at runs
  split at runs
  · cases runs
  · cases runs; omega

theorem joined_sound {r : Session} (complete : r.awaited = AwaitedDone.none) (now : Nat) (timeout : Word) :
    (r.joined now timeout).Sound :=
  ⟨by simp [joined, complete], by simp [joined], by simp [joined, timerFrom_running],
    fun _ => nextEpoch_ne_zero r.epoch⟩

theorem Sound.unawaited {r : Session} (sound : r.Sound) (other : r.state ≠ .closing) : r.awaited = AwaitedDone.none :=
  Classical.byContradiction fun awaits => other (sound.awaited.mpr awaits)

theorem Sound.stopped {r : Session} (sound : r.Sound) (other : r.state ≠ .opened) : r.timer = none :=
  Option.eq_none_iff_forall_ne_some.mpr fun t runs => other (sound.timer.mp ⟨t, runs⟩).1

theorem Sound.change {now : Nat} {r r' : Session} (change : Change now r r') (sound : r.Sound) : r'.Sound := by
  cases change with
  | heard =>
    unfold Session.heard
    split
    next opened =>
      exact ⟨sound.awaited, sound.held, by simp [opened, timerFrom_running], sound.epoch⟩
    all_goals exact sound
  | torn held cause opened =>
    exact ⟨by simp [torn, AwaitedDone.none], by simp [torn], by simp [torn], fun _ => sound.epoch (by simp [opened])⟩
  | joined timeout closed => exact joined_sound (sound.unawaited (by simp [closed])) now timeout
  | reported awaited closing more =>
    exact ⟨by simp [closing, more], sound.held, sound.timer, sound.epoch⟩
  | closed closing none =>
    exact ⟨by simp, by simp [none], by simp [sound.stopped (by simp [closing])], by simp⟩
  | rejoined timeout closing => exact joined_sound rfl now timeout

/-- The session timer, while it runs, runs toward a tick not gone by. -/
def Ahead (now : Nat) (r : Session) : Prop := ∀ t, r.runningTimer = some t → now ≤ t

theorem Ahead.change {now : Nat} {r r' : Session} (change : Change now r r') (ahead : r.Ahead now) : r'.Ahead now := by
  intro t runs
  rw [runningTimer_eq_some] at runs
  obtain ⟨opened, timer⟩ := runs
  have joins {r : Session} {timeout : Word} (timer : (r.joined now timeout).timer = some t) : now ≤ t :=
    timerFrom_ahead (timeout := timeout) timer
  cases change with
  | heard =>
    unfold Session.heard at opened timer
    split at timer
    · exact timerFrom_ahead timer
    all_goals exact ahead t ((runningTimer_eq_some _ t).mpr ⟨by simp_all, timer⟩)
  | torn => simp [torn] at opened
  | joined timeout _ => exact joins timer
  | reported awaited closing _ => simp [closing] at opened
  | closed => simp at opened
  | rejoined timeout _ => exact joins timer

end Session

theorem SessionUnit.reset_sound : SessionUnit.reset.Sound := by
  intro p
  simp only [SessionUnit.reset, PerPort.get_all]
  exact ⟨by simp [Session.reset], by simp [Session.reset], by simp [Session.reset], by simp [Session.reset]⟩

/-! ## No timer expires late (R198) -/

/-- No running timer's tick has gone by: the stale timer, the session timers, the pulse timers. -/
structure State.Ahead (s : State) : Prop where
  stale : ∀ u, s.si.staleTimer = some u → s.now ≤ u
  session : ∀ p, (s.su.sessions.get p).Ahead s.now
  pulse : ∀ l u, (s.lu.lines.get l).state.timer = some u → s.now ≤ u

theorem State.ahead_iff (s : State) : s.Ahead ↔ ∀ u ∈ s.timers, s.now ≤ u := by
  constructor
  · rintro ⟨stale, session, pulse⟩ u mem
    rcases (s.mem_timers u).mp mem with runs | ⟨p, runs⟩ | ⟨l, runs⟩
    · exact stale u runs
    · exact session p u runs
    · exact pulse l u runs
  · exact fun ahead => ⟨fun u runs => ahead u ((s.mem_timers u).mpr (.inl runs)),
      fun p u runs => ahead u ((s.mem_timers u).mpr (.inr (.inl ⟨p, runs⟩))),
      fun l u runs => ahead u ((s.mem_timers u).mpr (.inr (.inr ⟨l, runs⟩)))⟩

/-- The timebase goes to a tick that an expiry may be taken at. -/
theorem State.Ahead.advance {s : State} (ahead : s.Ahead) {e : Nat} (may : s.mayReach e = true) :
    (s.advanceTo e).Ahead := by
  rw [State.ahead_iff] at ahead ⊢
  intro u mem
  have mem : u ∈ s.timers := mem
  have passed := ahead u mem
  rcases (s.mayReach_iff e).mp may with reached | first
  · exact max_le passed (reached.trans passed)
  · exact max_le passed (first u mem)

namespace SampleIntake

/-- A stale timer that SI restarts runs toward a tick to come (R11). -/
theorem accept_timer (i : SampleIntake) (b : Bank) (now : Nat) (f : SampleFrame) :
    (i.accept b now f).staleTimer = some (timerEnd now b.staleTimeout) :=
  (reportHealth_same _ _ _).staleTimer

theorem takeFrame_timer (i : SampleIntake) (b : Bank) (now : Nat) (r : Reception) :
    (i.takeFrame b now r).staleTimer = i.staleTimer ∨
      (i.takeFrame b now r).staleTimer = some (timerEnd now b.staleTimeout) := by
  unfold takeFrame classify
  split
  · split
    · exact .inl rfl
    · exact .inr (accept_timer ..)
  · exact .inl rfl

theorem expire_timer (i : SampleIntake) (b : Bank) (now : Nat) :
    (i.expire b now).staleTimer = some (timerEnd now b.staleTimeout) := by
  cases stale : i.active.stale with
  | true => rw [expire_of_stale b now stale]
  | false => rw [expire_of_not_stale b now stale]

end SampleIntake

theorem timerEnd_ahead (now d : Nat) : now ≤ timerEnd now d := by unfold timerEnd; omega

namespace LineUnit

/-- Every pulse timer that runs, runs toward a tick not gone by. -/
def Ahead (now : Nat) (u : LineUnit) : Prop := ∀ l t, (u.lines.get l).state.timer = some t → now ≤ t

theorem Ahead.setLine {now : Nat} {u : LineUnit} (ahead : u.Ahead now) (l : Line) {r : LineRecord}
    (record : ∀ t, r.state.timer = some t → now ≤ t) : (u.setLine l r).Ahead now := by
  intro l' t
  simp only [LineUnit.setLine, PerLine.get_set]
  split
  · exact record t
  · exact ahead l' t

/-- A pulse started or extended now ends later (R139). -/
theorem Ahead.strike {now : Nat} {u : LineUnit} (ahead : u.Ahead now) (l : Line) :
    (u.setLine l ((u.lines.get l).strike now)).Ahead now := by
  refine ahead.setLine l fun t runs => ?_
  unfold LineRecord.strike at runs
  split at runs
  · exact ahead l t runs
  all_goals
    simp only [LineRecord.enter, LineState.timer, Option.some.injEq] at runs
    omega

theorem Ahead.claim {now : Nat} {u : LineUnit} (ahead : u.Ahead now) (p : Port) (tag : Byte) (l : Line)
    (pol : Polarity) (width : BitVec 8) : (u.claim p tag l pol width).Ahead now := by
  unfold LineUnit.claim
  dsimp only
  split
  · exact ahead.setLine l (r := { (u.lines.get l).enter (.idle p) pol with width := width, merged := 0 }) (by
      simp [LineRecord.enter, LineState.timer])
  · split
    · exact ahead.setLine l (r := { (u.lines.get l).enter (.idle p) pol with width := width }) (by
        simp [LineRecord.enter, LineState.timer])
    · exact ahead
  · split
    · split
      · exact ahead.setLine l (r := { u.lines.get l with width := width }) (ahead l)
      · exact ahead
    · exact ahead

theorem Ahead.asked {now : Nat} {u u' : LineUnit} {p : Port} (ahead : u.Ahead now) (asked : u.Asked now p u') :
    u'.Ahead now := by
  cases asked with
  | claim tag line polarity width =>
    unfold takeClaim
    repeat' split
    · exact ahead
    · exact ahead
    · exact Ahead.claim ahead _ _ _ _ _
  | release tag line =>
    unfold takeRelease
    dsimp only
    repeat' split
    · exact ahead
    · exact ahead
    · exact ahead
    next l _ _ _ => exact ahead.setLine l (r := (u.lines.get l).release) (by simp [LineRecord.release_keeps, LineState.timer])
  | pulse tag line =>
    unfold takePulse
    dsimp only
    repeat' split
    · exact ahead
    · exact ahead
    next l _ _ => exact ahead.strike l
  | status tag line =>
    unfold takeStatus
    split <;> exact ahead

theorem Ahead.told {now : Nat} {u u' : LineUnit} (ahead : u.Ahead now) (told : u.Told now u') : u'.Ahead now := by
  cases told with
  | pulse l p =>
    unfold takePulseRequest
    dsimp only
    split
    · exact ahead.strike l
    · exact ahead
  | added l p => exact ahead.setLine l (ahead l)
  | removed l p => exact ahead.setLine l (ahead l)

theorem Ahead.takeReleaseAll {now : Nat} {u : LineUnit} (ahead : u.Ahead now) (p : Port) :
    (u.takeReleaseAll p).Ahead now := by
  obtain ⟨lines, each, eq⟩ := u.takeReleaseAll_eq p
  intro l t
  rw [eq, show lines.get l = _ from each l]
  split
  · simp [LineRecord.release_keeps, LineState.timer]
  · exact ahead l t

theorem Ahead.takeReferencesPurged {now : Nat} {u : LineUnit} (ahead : u.Ahead now) (p : Port) :
    (u.takeReferencesPurged p).Ahead now := by
  obtain ⟨lines, each, eq⟩ := u.takeReferencesPurged_eq p
  intro l t
  rw [eq, show lines.get l = _ from each l]
  exact ahead l t

end LineUnit

/-- Every effect keeps every timer ahead: what it restarts runs from the tick it happens at, and an expiry moves the
timebase no farther than the next timer's tick. -/
theorem Effect.keeps_ahead {s t : State} (effect : Effect s t) (ahead : s.Ahead) : t.Ahead := by
  have sessions := effect.keeps_sessions (P := fun now r => r.Ahead now) (fun _ _ _ change => Session.Ahead.change change)
    ahead.session
  have restarted {b : Bank} {now u : Nat} {timer : Option Nat} (set : timer = some (timerEnd now b.staleTimeout))
      (runs : timer = some u) : now ≤ u := by
    obtain rfl := Option.some.inj (set.symm.trans runs)
    exact timerEnd_ahead ..
  have lines : s.lu.Ahead s.now := ahead.pulse
  cases effect
  case staleExpires e _ may =>
    exact ⟨fun u => restarted (SampleIntake.expire_timer s.si s.bank (max s.now e)), (ahead.advance may).session,
      (ahead.advance may).pulse⟩
  case sessionExpires q e runs may =>
    refine ⟨(ahead.advance may).stale, fun p => ?_, (ahead.advance may).pulse⟩
    have opened := ((Session.runningTimer_eq_some _ e).mp runs).1
    exact (SessionUnit.teardown_changes s.su _ q .expired opened p).keeps (fun _ _ change => Session.Ahead.change change)
      ((ahead.advance may).session p)
  case pulseEnds l q e _ may =>
    have later : s.lu.Ahead (max s.now (e + 1)) := (ahead.advance may).pulse
    exact ⟨(ahead.advance may).stale, (ahead.advance may).session,
      later.setLine l (by simp [LineRecord.enter, LineState.timer])⟩
  case frameTaken levels _ =>
    refine ⟨fun u runs => ?_, sessions, ahead.pulse⟩
    rcases SampleIntake.takeFrame_timer { s.si with
      reception := { levels.foldl Reception.clock s.si.reception with inFrame := false } } s.bank s.now
        (levels.foldl Reception.clock s.si.reception) with same | set
    · exact ahead.stale u (same.symm.trans runs)
    · exact restarted set runs
  case intakeAsked same => exact ⟨fun u runs => ahead.stale u (same.staleTimer.symm.trans runs), sessions, ahead.pulse⟩
  case intakeCleared same => exact ⟨fun u runs => ahead.stale u (same.staleTimer.symm.trans runs), sessions, ahead.pulse⟩
  case linesAsked asked => exact ⟨ahead.stale, sessions, lines.asked asked⟩
  case linesTold told => exact ⟨ahead.stale, sessions, lines.told told⟩
  case linesReleased => exact ⟨ahead.stale, sessions, lines.takeReleaseAll _⟩
  case referencesPurged => exact ⟨ahead.stale, sessions, lines.takeReferencesPurged _⟩
  all_goals exact ⟨ahead.stale, sessions, ahead.pulse⟩

/-! ## The idle device (R198) -/

/-- Every due expiry is one of the three kinds. -/
theorem mem_dueExpiries {s : State} {c : Instr} (due : c ∈ s.dueExpiries) :
    c = .staleTimerExpiry ∨ (∃ p, c = .sessionTimerExpiry p) ∨ ∃ l, c = .pulseEnd l := by
  unfold State.dueExpiries at due
  simp only [List.mem_append, List.mem_map] at due
  obtain (stale | ⟨p, -, rfl⟩) | ⟨l, -, rfl⟩ := due
  · split at stale
    · exact .inl (List.mem_singleton.mp stale)
    · simp at stale
  · exact .inr (.inl ⟨p, rfl⟩)
  · exact .inr (.inr ⟨l, rfl⟩)

/-- A running device with no command takes its first due expiry, or the timebase ticks. -/
theorem idle_running {s : State} (running : s.phase = .running) :
    idle s = match s.dueExpiries.head? with
      | some c => exec c s
      | none => .next s.tick := by
  unfold idle
  rw [running]
  cases due : s.dueExpiries with
  | nil => rfl
  | cons c rest =>
    have kind := mem_dueExpiries (s := s) (c := c) (by rw [due]; exact List.mem_cons_self)
    rcases kind with rfl | ⟨p, rfl⟩ | ⟨l, rfl⟩ <;> rfl

theorem State.reached_eq (s : State) (timer : Option Nat) : s.reached timer = true ↔ ∃ t, timer = some t ∧ t ≤ s.now := by
  unfold State.reached
  cases timer <;> simp

/-- No expiry is due while every timer runs toward a later tick. -/
theorem State.dueExpiries_eq_nil (s : State) : s.dueExpiries = [] ↔ ∀ u ∈ s.timers, s.now < u := by
  have early (timer : Option Nat) : s.reached timer = false ↔ ∀ u, timer = some u → s.now < u := by
    rw [← Bool.not_eq_true, s.reached_eq]
    push Not
    exact Iff.rfl
  have ports (p : Port) : p ∈ Port.inOrder := by cases p <;> decide
  have lines (l : Line) : l ∈ Line.inOrder := by cases l <;> decide
  have stale : (if s.reached s.si.staleTimer = true then [Instr.staleTimerExpiry] else []) = [] ↔
      s.reached s.si.staleTimer = false := by
    cases s.reached s.si.staleTimer <;> simp
  unfold State.dueExpiries
  simp only [List.append_eq_nil_iff, List.map_eq_nil_iff, List.filter_eq_nil_iff, Bool.not_eq_true, ports, lines,
    forall_const, stale, early, s.mem_timers]
  constructor
  · rintro ⟨⟨stale, sessions⟩, pulses⟩ u (runs | ⟨p, runs⟩ | ⟨l, runs⟩)
    · exact stale u runs
    · exact sessions p u runs
    · exact pulses l u runs
  · exact fun later => ⟨⟨fun u runs => later u (.inl runs), fun p u runs => later u (.inr (.inl ⟨p, runs⟩))⟩,
      fun l u runs => later u (.inr (.inr ⟨l, runs⟩))⟩

/-! ## Every step -/

/-- While the device is in reset every timer is stopped, and the reset keeps them so. -/
theorem State.TimersSound.of_stopped {s : State} (stopped : s.timers = []) : s.TimersSound :=
  ⟨fun _ => stopped, by simp [stopped]⟩

theorem resetValues_timers (now : Nat) (phase : ResetPhase) (queue : List Instr) :
    (State.resetValues none now phase queue).timers = [] := rfl

theorem exec_keeps_timers {c : Instr} {s t : State} (sound : s.TimersSound) (e : exec c s = .next t) :
    t.TimersSound := by
  by_cases not_reset : c = .reset
  · subst not_reset
    cases e
    exact .of_stopped (resetValues_timers ..)
  by_cases not_high : c = .resetFoundHigh
  · subst not_high
    cases e
    split
    next low => exact .of_stopped (sound.stopped (by simp [low]))
    · exact sound
    · exact sound
  by_cases not_end : c = .resetEnd
  · subst not_end
    cases e
    split
    next e starting =>
      have stopped := sound.stopped (by simp [starting])
      have none (u : Nat) : u ∉ s.timers := by simp [stopped]
      refine ⟨fun reset => absurd rfl reset, (State.ahead_iff _).mp ⟨?_, ?_, ?_⟩⟩
      · rintro u ⟨⟩
        exact timerEnd_ahead ..
      · exact fun p u runs => absurd ((s.mem_timers u).mpr (.inr (.inl ⟨p, runs⟩))) (none u)
      · exact fun l u runs => absurd ((s.mem_timers u).mpr (.inr (.inr ⟨l, runs⟩))) (none u)
    · exact sound
    · exact sound
  by_cases running : s.phase = .running
  · have effect := exec_effect not_reset not_high not_end e
    obtain ⟨-, -, phase⟩ := effect.frame
    exact ⟨fun reset => absurd (phase.trans running) reset,
      (State.ahead_iff t).mp (effect.keeps_ahead ((State.ahead_iff s).mpr sound.ahead))⟩
  · have still := resetIgnoresInputs c s running not_reset not_high not_end
    cases still.symm.trans e
    exact sound

/-- The timebase ticks where no timer has reached its tick. -/
theorem tick_keeps_timers {s : State} (sound : s.TimersSound) (early : ∀ u ∈ s.timers, s.now < u) :
    s.tick.TimersSound :=
  ⟨sound.stopped, early⟩

/-- Settles O58: a session record by the changes SU makes of it; the timers by what every command restarts and by how far
an expiry and a tick move the timebase. -/
theorem sessionRecordsAndTimersStaySound : Obligations.SessionRecordsAndTimersStaySound := by
  intro s s' next
  refine ⟨fun start => ?_, fun sound => ?_⟩
  · exact step_keeps (P := fun s => s.su.Sound) (fun _ _ => SessionUnit.reset_sound) (fun _ _ _ _ _ sound => sound)
      (fun _ _ effect sound => effect.keeps_sessions (P := fun _ r => r.Sound)
        (fun _ _ _ change => Session.Sound.change change) sound) start next
  · unfold step at next
    split at next
    next c rest _ => exact exec_keeps_timers (s := { s with pending := rest }) ⟨sound.stopped, sound.ahead⟩ next
    by_cases running : s.phase = .running
    · rw [idle_running running] at next
      split at next
      · exact exec_keeps_timers sound next
      next none =>
        cases next
        exact tick_keeps_timers sound (s.dueExpiries_eq_nil.mp (List.head?_eq_none_iff.mp none))
    · have stopped := sound.stopped running
      unfold idle at next
      split at next
      · cases next; exact sound
      · split at next
        · exact exec_keeps_timers (c := .resetEnd) sound next
        · cases next
          exact tick_keeps_timers sound (by simp [stopped])
      next on => exact absurd on running

/-- Settles O60, block by block. -/
theorem stateAfterResetIsSound : Obligations.StateAfterResetIsSound := by
  refine ⟨ConfigUnit.reset_sound, TrackingLoop.reset_sound, SampleIntake.reset_sound _, TriggerTable.reset_sound,
    LineUnit.reset_sound, NoticeUnit.reset_sound, SessionUnit.reset_sound, fun p => ?_, ?_, fun p => ?_⟩
  · rw [show State.reset.hp.get p = HostPort.reset from PerPort.get_all ..]
    exact HostPort.reset_sound
  · exact ⟨fun reset => absurd rfl reset, by simp [State.reset, State.resetValues]⟩
  · obtain ⟨table, lines, lease, notices⟩ := reset_ties (some (Config.resetStaleTimeout + 1)) 0 .running [] p
    exact ⟨(State.tableTie_iff _ p).mp table, (State.lineTie_iff _ p).mp lines, (State.leaseTie_iff _ p).mp lease,
      (State.noticeTie_iff _ p).mp notices⟩

end Sys2Proof.Machine
end

section
/-! A device left to itself ticks up to the first tick toward which a timer runs and takes that timer's expiry there; an
expiry named by a command is the expiry at its tick (O6). -/

namespace Sys2Proof.Machine
open Sys2Proof.Claims

/-- The statements' condition on the timers is the model's. -/
theorem noTimerBefore_iff (s : State) (t : Nat) : NoTimerBefore s t ↔ ∀ u ∈ s.timers, t ≤ u := by
  simp only [s.mem_timers, Session.runningTimer_eq_some, LineState.timer_eq_some]
  constructor
  · rintro ⟨stale, session, pulse⟩ u (runs | ⟨p, opened, runs⟩ | ⟨l, p, e, pulsing, rfl⟩)
    · exact stale u runs
    · exact session p u opened runs
    · exact pulse l p e pulsing
  · exact fun first => ⟨fun u runs => first u (.inl runs), fun p u opened runs => first u (.inr (.inl ⟨p, opened, runs⟩)),
      fun l p e pulsing => first (e + 1) (.inr (.inr ⟨l, p, e, pulsing, rfl⟩))⟩

theorem sessionTimerAt_iff (s : State) (p : Port) (t : Nat) :
    SessionTimerAt s p t ↔ (s.su.sessions.get p).runningTimer = some t :=
  (Session.runningTimer_eq_some ..).symm

theorem pulseTimerAt_iff (s : State) (l : Line) (t : Nat) :
    PulseTimerAt s l t ↔ (s.lu.lines.get l).state.timer = some t := by
  rw [LineState.timer_eq_some]
  simp only [PulseTimerAt, eq_comm (a := t)]

/-! ## The device left to itself -/

/-- A step with no command waiting, before the first timer's tick, is a tick. -/
theorem step_ticks {s : State} (running : s.phase = .running) (waits : s.pending = [])
    (early : ∀ u ∈ s.timers, s.now < u) : step s = .next s.tick := by
  have idles : step s = idle s := by unfold step; rw [waits]
  rw [idles, idle_running running, s.dueExpiries_eq_nil.mpr early]
  rfl

theorem run_succ {M : Host.Core} {s t : M.State} (next : M.step s = .next t) (k : Nat) : M.run (k + 1) s = M.run k t := by
  simp only [Host.Core.run, next]

/-- k ticks of the timebase, up to the first timer's tick. -/
theorem run_ticks (k : Nat) : ∀ {s : State} {T : Nat}, s.phase = .running → s.pending = [] →
    (∀ u ∈ s.timers, T ≤ u) → s.now + k ≤ T → core.run k s = .next { s with now := s.now + k } := by
  induction k with
  | zero => intro s T running waits first within; rfl
  | succ k ih =>
    intro s T running waits first within
    have tick : core.step s = .next s.tick :=
      step_ticks running waits fun u mem => by have := first u mem; omega
    have more : s.tick.now + k = s.now + (k + 1) := by simp only [State.tick]; omega
    refine (run_succ (M := core) tick k).trans ((ih (s := s.tick) running waits first (by omega)).trans ?_)
    rw [more]
    rfl

/-! ## The first timers at their tick -/

/-- At the first tick toward which a timer runs, exactly the timers that run toward it are due. -/
theorem reached_at_first {s : State} {T : Nat} {timer : Option Nat} (first : ∀ u, timer = some u → T ≤ u) :
    State.reached { s with now := T } timer = decide (timer = some T) := by
  rw [Bool.eq_iff_iff, State.reached_eq, decide_eq_true_iff]
  constructor
  · rintro ⟨u, rfl, reached⟩
    exact congrArg some (Nat.le_antisymm reached (first u rfl))
  · exact fun runs => ⟨T, runs, le_rfl⟩

/-- The expiries due at the first tick toward which a timer runs. -/
theorem dueExpiries_at_first {s : State} {T : Nat} (first : NoTimerBefore s T) :
    State.dueExpiries { s with now := T } =
      (if s.si.staleTimer = some T then [.staleTimerExpiry] else []) ++
        (Port.inOrder.filter fun p => decide ((s.su.sessions.get p).runningTimer = some T)).map
          Instr.sessionTimerExpiry ++
        (Line.inOrder.filter fun l => decide ((s.lu.lines.get l).state.timer = some T)).map Instr.pulseEnd := by
  rw [noTimerBefore_iff] at first
  simp only [s.mem_timers] at first
  unfold State.dueExpiries
  rw [reached_at_first fun u runs => first u (.inl runs)]
  congr 1
  · congr 1
    · simp
    · congr 1
      exact List.filter_congr fun p _ => reached_at_first fun u runs => first u (.inr (.inl ⟨p, runs⟩))
  · congr 1
    exact List.filter_congr fun l _ => reached_at_first fun u runs => first u (.inr (.inr ⟨l, runs⟩))

/-- The first port, in order, of which a condition holds. -/
theorem head_filter_ports {c : Port → Bool} {p : Port} (holds : c p = true)
    (first : ∀ q : Port, q.byte.toNat < p.byte.toNat → c q = false) : (Port.inOrder.filter c).head? = some p := by
  have before (q : Port) := first q
  cases p <;> simp_all [Port.inOrder, Port.byte, List.filter_cons]

/-- The first line, in order, of which a condition holds. -/
theorem head_filter_lines {c : Line → Bool} {l : Line} (holds : c l = true)
    (first : ∀ m : Line, m.byte.toNat < l.byte.toNat → c m = false) : (Line.inOrder.filter c).head? = some l := by
  have before (m : Line) := first m
  cases l <;> simp_all [Line.inOrder, Line.byte, List.filter_cons]

/-- A step with no command waiting takes the first due expiry. -/
theorem step_takes {s : State} {c : Instr} (running : s.phase = .running) (waits : s.pending = [])
    (due : s.dueExpiries.head? = some c) : step s = exec c s := by
  have idles : step s = idle s := by unfold step; rw [waits]
  rw [idles, idle_running running, due]

/-! ## An expiry named by a command -/

/-- An expiry whose tick has come takes place with the timebase there, from an earlier tick too where no other timer's tick
comes before. -/
theorem expireAt_at {s : State} {T : Nat} (f : State → State) (ahead : s.now < T) :
    (NoTimerBefore s T → s.expireAt T f = State.expireAt T { s with now := T } f) ∧
      (¬ NoTimerBefore s T → s.expireAt T f = s) := by
  rw [noTimerBefore_iff]
  refine ⟨fun first => ?_, fun other => ?_⟩
  · have goes : s.advanceTo T = { s with now := T } := by simp only [State.advanceTo, Nat.max_eq_right ahead.le]
    have there : State.advanceTo T { s with now := T } = { s with now := T } := State.advanceTo_reached le_rfl
    rw [State.expireAt_reached (s := { s with now := T }) le_rfl, there]
    unfold State.expireAt
    rw [if_pos ((s.mayReach_iff T).mpr (.inr first)), goes]
  · unfold State.expireAt
    rw [if_neg]
    rw [s.mayReach_iff]
    rintro (reached | first)
    · omega
    · exact other first

/-- The command that names the expiry of a timer takes that expiry, with the timebase at the timer's tick. -/
theorem expiryAt_expireAt {s : State} {c : Instr} {T : Nat} (names : ExpiryAt s c T) (running : s.phase = .running) :
    ∃ f, ∀ now, exec c { s with now := now } = .next (State.expireAt T { s with now := now } f) := by
  obtain ⟨rfl, runs⟩ | ⟨p, rfl, opened, runs⟩ | ⟨l, rfl, p, e, pulsing, rfl⟩ := names
  · refine ⟨fun s => { s with si := s.si.expire s.bank s.now }, fun now => ?_⟩
    change execStaleTimerExpiry _ = _
    rw [execStaleTimerExpiry, State.running_of_running (by exact running)]
    simp only [runs]
  · refine ⟨fun s => { s with su := s.su.teardown p .expired }, fun now => ?_⟩
    change execSessionTimerExpiry p _ = _
    rw [execSessionTimerExpiry, State.running_of_running (by exact running)]
    simp only [(Session.runningTimer_eq_some _ _).mpr ⟨opened, runs⟩]
  · refine ⟨fun s => { s with lu := s.lu.endPulse l p }, fun now => ?_⟩
    change execPulseEnd l _ = _
    rw [execPulseEnd, State.running_of_running (by exact running)]
    simp only [pulsing]

/-- Settles O6: the ticks before the first timer's tick, the expiry the idle device takes there, and the expiry named by a
command. -/
theorem timersExpireAtTheirTick : Obligations.TimersExpireAtTheirTick := by
  intro s T running
  dsimp only
  refine ⟨fun waits _ first => ⟨fun k within => ?_, fun stale => ?_, fun p at_ no_stale before => ?_,
    fun l at_ no_stale no_session before => ?_⟩, fun c names ahead => ?_⟩
  · exact run_ticks k running waits ((noTimerBefore_iff s T).mp first) within
  · refine step_takes (s := { s with now := T }) running waits ?_
    rw [dueExpiries_at_first first, if_pos stale]
    rfl
  · refine step_takes (s := { s with now := T }) running waits ?_
    rw [dueExpiries_at_first first, if_neg no_stale, List.nil_append]
    simp only [sessionTimerAt_iff] at at_ before
    rw [List.head?_append, List.head?_map, head_filter_ports (p := p) (by simpa using at_) (by simpa using before)]
    rfl
  · refine step_takes (s := { s with now := T }) running waits ?_
    rw [dueExpiries_at_first first, if_neg no_stale, List.nil_append]
    simp only [sessionTimerAt_iff, pulseTimerAt_iff] at at_ no_session before
    have none : Port.inOrder.filter (fun p => decide ((s.su.sessions.get p).runningTimer = some T)) = [] := by
      simpa using fun p _ => no_session p
    rw [none, List.map_nil, List.nil_append, List.head?_map,
      head_filter_lines (l := l) (by simpa using at_) (by simpa using before)]
    rfl
  · obtain ⟨f, taken⟩ := expiryAt_expireAt names running
    have now := taken s.now
    have due := taken T
    obtain ⟨same, not_offered⟩ := expireAt_at (s := s) f ahead
    refine ⟨fun first => ?_, fun other => ?_⟩
    · rw [due, ← same first]; exact now
    · exact now.trans (congrArg Host.Outcome.next (not_offered other))

end Sys2Proof.Machine
end

section
/-! A sample frame at SI (R5 to R25): the parity check over the frame's bits, and the frame opened, rejected, counted as a
duplicate or accepted (O7 to O9). -/

namespace Sys2Proof.Machine
open Sys2Proof.Claims

/-! ## The parity groups (R6) -/

/-- The number of indices of a group at which a word holds a one, summed over the indices. -/
theorem onesIn_eq (f : BitVec 32) (group : Nat → Bool) :
    onesIn f group = (List.range 32).countP fun i => group i && f.getLsbD i := by
  rw [onesIn, List.countP_eq_length_filter]

theorem onesIn_parityA (f : BitVec 32) :
    ((List.range 17).filter fun i => (parityAGroup f).getLsbD i).length =
      onesIn f (fun i => decide (16 ≤ i) || i == 1) := by
  have bit (i : Nat) : (parityAGroup f).getLsbD i =
      if i < 1 then (f.extractLsb' 1 1).getLsbD i else (f.extractLsb' 16 16).getLsbD (i - 1) := BitVec.getLsbD_append
  have low : (parityAGroup f).getLsbD 0 = f.getLsbD 1 := by rw [bit]; simp
  have high (i : Nat) (h : i < 16) : (parityAGroup f).getLsbD (i + 1) = f.getLsbD (16 + i) := by simp [bit, h]
  rw [onesIn_eq, ← List.countP_eq_length_filter, List.range_succ_eq_map (n := 16), List.range_add (n := 16) (m := 16),
    List.countP_append, List.countP_cons, List.countP_map, List.countP_map, add_comm, low]
  congr 1
  · simp [List.range_succ, List.countP_cons]
  · refine List.countP_congr fun i mem => ?_
    simp [high i (List.mem_range.mp mem)]

theorem onesIn_parityB (f : BitVec 32) :
    ((List.range 15).filter fun i => (parityBGroup f).getLsbD i).length =
      onesIn f (fun i => (decide (2 ≤ i) && decide (i ≤ 15)) || i == 0) := by
  have bit (i : Nat) : (parityBGroup f).getLsbD i =
      if i < 1 then (f.extractLsb' 0 1).getLsbD i else (f.extractLsb' 2 14).getLsbD (i - 1) := BitVec.getLsbD_append
  have low : (parityBGroup f).getLsbD 0 = f.getLsbD 0 := by rw [bit]; simp
  have high (i : Nat) (h : i < 14) : (parityBGroup f).getLsbD (i + 1) = f.getLsbD (2 + i) := by simp [bit, h]
  rw [onesIn_eq, ← List.countP_eq_length_filter, List.range_succ_eq_map (n := 14), List.range_add (n := 16) (m := 16),
    List.countP_append, List.countP_cons, List.countP_map, List.countP_map, low]
  have rest : (List.range 16).countP ((fun i => ((decide (2 ≤ i) && decide (i ≤ 15)) || i == 0) && f.getLsbD i) ∘ (16 + ·)) =
      0 := by
    refine List.countP_eq_zero.mpr fun i _ => ?_
    simp only [Function.comp_apply, Bool.and_eq_true, Bool.or_eq_true, decide_eq_true_eq, beq_iff_eq]
    omega
  rw [rest, Nat.add_zero, List.range_add (n := 2) (m := 14), List.countP_append, List.countP_map, add_comm]
  congr 1
  · simp [List.range_succ, List.countP_cons]
  · refine List.countP_congr fun i mem => ?_
    have small := List.mem_range.mp mem
    have inside : 2 + i ≤ 15 := by omega
    simp [high i small, inside]

/-- The model's parity check is the manual's (R6). -/
theorem parityGood_iff (f : BitVec 32) :
    ParityGood f ↔ evenOnes (parityAGroup f) = true ∧ evenOnes (parityBGroup f) = true := by
  rw [evenOnes_iff, evenOnes_iff, onesIn_parityA, onesIn_parityB]
  exact Iff.rfl

/-! ## What SAMPLE_FRAME takes -/

/-- SAMPLE_FRAME on an open frame: SI takes the frame as it was clocked. -/
theorem exec_sampleFrame {s : State} (opened : FrameOpen s) (levels : List Bool) :
    exec (.sampleFrame levels) s = .next { s with
      si := { s.si with reception := { levels.foldl Reception.clock ⟨true, 0, 0⟩ with inFrame := false } }.takeFrame
        s.bank s.now (levels.foldl Reception.clock ⟨true, 0, 0⟩) } := by
  obtain ⟨running, reception⟩ := opened
  change execSampleFrame levels s = _
  rw [execSampleFrame, State.running_of_running running, reception]
  rfl

/-- SAMPLE_FRAME on the 32 bits of a frame. -/
theorem exec_frameLevels {s : State} (opened : FrameOpen s) (f : BitVec 32) :
    exec (.sampleFrame (frameLevels f)) s = .next { s with
      si := { s.si with reception := ⟨false, f, 32⟩ }.takeFrame s.bank s.now ⟨true, f, 32⟩ } := by
  rw [exec_sampleFrame opened, show (frameLevels f).foldl _ _ = _ from Reception.clock_frame f]

namespace SampleIntake

theorem takeFrame_rejected {b : Bank} {now : Nat} {r : Reception} {i : SampleIntake} (bad : frameGood r = false) :
    i.takeFrame b now r = { i with rejected := satAdd16 i.rejected 1 } := by
  unfold takeFrame
  rw [bad]
  rfl

theorem frameGood_iff (f : BitVec 32) : frameGood ⟨true, f, 32⟩ = true ↔ ParityGood f := by
  rw [parityGood_iff]
  simp [frameGood, Config.frameClocks]

theorem takeFrame_good {b : Bank} {now : Nat} {f : BitVec 32} {i : SampleIntake} (good : ParityGood f) :
    i.takeFrame b now ⟨true, f, 32⟩ = i.classify b now (SampleFrame.ofBits f) := by
  unfold takeFrame
  rw [(frameGood_iff f).mpr good]
  rfl

end SampleIntake

/-- Settles O7: each clause is one branch of the frame's judgement. -/
theorem framesOpenedRejectedAndDuplicated : Obligations.FramesOpenedRejectedAndDuplicated := by
  refine ⟨fun s levels running closed => ?_, fun s running => ?_, fun s levels opened length => ?_,
    fun s f opened bad => ?_, fun s f opened good duplicate => ?_⟩
  · change execSampleFrame levels s = _
    rw [execSampleFrame, State.running_of_running running, if_neg (by simp [closed])]
  · change execSfrmRises s = _
    rw [execSfrmRises, State.running_of_running running]
  · refine ⟨{ levels.foldl Reception.clock ⟨true, 0, 0⟩ with inFrame := false }, rfl,
      (exec_sampleFrame opened levels).trans ?_⟩
    have clocks := (Reception.clock_counts levels ⟨true, 0, 0⟩ (Nat.zero_le _)).1
    generalize levels.foldl Reception.clock ⟨true, 0, 0⟩ = r at clocks
    have wrong : r.clocks ≠ 32 := by rw [clocks]; dsimp only; omega
    have bad : SampleIntake.frameGood r = false := by simp [SampleIntake.frameGood, Config.frameClocks, wrong]
    rw [SampleIntake.takeFrame_rejected bad]
  · refine ⟨⟨false, f, 32⟩, rfl, (exec_frameLevels opened f).trans ?_⟩
    have bad := Bool.not_eq_true _ ▸ mt (SampleIntake.frameGood_iff f).mp bad
    rw [SampleIntake.takeFrame_rejected bad]
  · refine ⟨⟨false, f, 32⟩, rfl, (exec_frameLevels opened f).trans ?_⟩
    rw [SampleIntake.takeFrame_good good, SampleIntake.classify, if_pos (by exact duplicate)]

/-! ## An accepted frame (R8 to R25) -/

namespace SampleIntake

/-- Whether or not a health report is sent, only the path to NU may change (R24). -/
theorem reportHealth_eq (i : SampleIntake) (before : CauseSet) :
    i.reportHealth before = { i with
      toNu := if i.active = before then i.toNu else i.toNu ++ [⟨i.active, i.active.differing before, i.stamp⟩] } := by
  unfold reportHealth
  split <;> rfl

/-- The intake after an accepted frame, field by field. -/
theorem accept_eq (b : Bank) (now : Nat) (f : SampleFrame) (i : SampleIntake) :
    let k := gapOf i.baseline f.seq
    let judged := judge b f i.active i.runs
    let stamp := i.stamp + k.setWidth 16 + 1
    let newly := judged.1.diff i.active
    i.accept b now f = { i with
      baseline := some f.seq
      stamp := stamp
      gap := satAdd16 i.gap k.toNat
      staleTimer := some (timerEnd now b.staleTimeout)
      active := judged.1
      runs := judged.2
      toTl := i.toTl ++ [.frame k (correctSine b f.sine) (correctCosine b f.cosine) judged.1.good stamp]
      sticky := ⟨i.sticky.p0.map (·.union newly), i.sticky.p1.map (·.union newly),
        i.sticky.p2.map (·.union newly), i.sticky.p3.map (·.union newly)⟩
      toNu := if judged.1 = i.active then i.toNu else i.toNu ++ [⟨judged.1, judged.1.differing i.active, stamp⟩] } := by
  rw [accept, reportHealth_eq]
  rfl

end SampleIntake

/-- An accepted frame at SI. -/
theorem exec_acceptedFrame {s : State} {f : BitVec 32} (opened : FrameOpen s) (good : ParityGood f)
    (new : s.si.baseline ≠ some (f.extractLsb' 28 4)) :
    exec (.sampleFrame (frameLevels f)) s = .next { s with
      si := { s.si with reception := ⟨false, f, 32⟩ }.accept s.bank s.now (SampleFrame.ofBits f) } := by
  rw [exec_frameLevels opened f, SampleIntake.takeFrame_good good, SampleIntake.classify]
  rw [if_neg (by exact new)]

theorem gapOf_eq_gap (b : Option (BitVec 4)) (n : BitVec 4) : (SampleIntake.gapOf b n).toNat = gap b n := by
  rw [SampleIntake.gapOf_toNat]
  unfold gap
  cases b with
  | none => rfl
  | some x =>
    have small := x.isLt
    dsimp only
    congr 1
    omega

/-- Settles O8. -/
theorem acceptedFrameIsHandedToTheLoop : Obligations.AcceptedFrameIsHandedToTheLoop := by
  intro s f opened good new
  refine ⟨_, exec_acceptedFrame opened good new, ?_⟩
  rw [SampleIntake.accept_eq]
  have number : (SampleFrame.ofBits f).seq = f.extractLsb' 28 4 := rfl
  have gap_eq := gapOf_eq_gap s.si.baseline (f.extractLsb' 28 4)
  have gap_lt := (SampleIntake.gapOf s.si.baseline (f.extractLsb' 28 4)).isLt
  have gap_bits : BitVec.ofNat 4 (gap s.si.baseline (f.extractLsb' 28 4)) =
      SampleIntake.gapOf s.si.baseline (f.extractLsb' 28 4) := by rw [← gap_eq]; simp
  refine ⟨rfl, ?_, ?_, rfl, ?_, rfl, rfl, rfl, rfl, rfl⟩
  · rw [← gap_eq]
    simp [number, BitVec.toNat_add, BitVec.toNat_setWidth]
  · rw [← gap_eq]
    exact satAdd16_toNat ..
  · rw [gap_bits]
    have usable (a : CauseSet) : a.good = decide (a = ⟨false, false, false, false⟩) := by
      rw [Bool.eq_iff_iff, CauseSet.good_iff, decide_eq_true_iff]
      rfl
    dsimp only
    rw [usable]
    rfl

/-! ## The four causes (R15 to R20) -/

/-- The persistence rule, as the statements word it (R16). -/
theorem persist_persists (cond active : Bool) (run : BitVec 4) (p : Nat) :
    Persists cond active (persist cond active run p).1 run (persist cond active run p).2 p := by
  unfold persist runOn
  refine ⟨fun same => ?_, fun differs complete => ?_, fun differs more => ?_⟩
  · simp [same]
  · simp [differs, complete]
  · simp [differs, not_le.mpr more]

/-- Settles O9. -/
theorem acceptedFrameJudgesHealth : Obligations.AcceptedFrameJudgesHealth := by
  intro s f opened good new
  dsimp only
  refine ⟨_, exec_acceptedFrame opened good new, ?_⟩
  rw [SampleIntake.accept_eq]
  have sticky (newly : CauseSet) (p : Port) :
      PerPort.get ⟨s.si.sticky.p0.map (·.union newly), s.si.sticky.p1.map (·.union newly),
        s.si.sticky.p2.map (·.union newly), s.si.sticky.p3.map (·.union newly)⟩ p =
          (s.si.sticky.get p).map (·.union newly) := by cases p <;> rfl
  refine ⟨rfl, rfl, fun low cond => ?_, fun sat cond => ?_, fun fault => ?_, fun clear inactive => ?_,
    fun clear active => ?_, fun p none => ?_, fun p c some => ?_, fun same => ?_, fun differs => ?_⟩
  · have eq : low = lowCondition s.bank (corrS s.bank f * corrS s.bank f + corrC s.bank f * corrC s.bank f) := by
      rw [Bool.eq_iff_iff, cond]; simp [lowCondition]
    subst eq
    exact persist_persists ..
  · have eq : sat = saturatedCondition s.bank (SampleFrame.ofBits f)
        (corrS s.bank f * corrS s.bank f + corrC s.bank f * corrC s.bank f) := by
      rw [Bool.eq_iff_iff, cond]
      simp [saturatedCondition, atFullScale, SampleFrame.ofBits, or_assoc]
    subst eq
    exact persist_persists ..
  · have fault : (SampleFrame.ofBits f).feFault = true := fault
    simp [SampleIntake.judge, persistFrontEnd, fault]
  · have clear : (SampleFrame.ofBits f).feFault = false := clear
    simp [SampleIntake.judge, persistFrontEnd, clear, inactive]
  · have clear : (SampleFrame.ofBits f).feFault = false := clear
    have judged : persistFrontEnd false true s.si.runs.frontEnd s.bank.persistence =
        persist false true s.si.runs.frontEnd s.bank.persistence := rfl
    simp only [SampleIntake.judge, clear, active, judged]
    exact persist_persists ..
  · rw [sticky, none]; rfl
  · rw [sticky, some]; rfl
  · exact if_pos same
  · exact if_neg differs

end Sys2Proof.Machine
end

section
/-! Every entry of the sine table is the rounded sine (R36, O13). Points of the circle at multiples of the table's angle and
of 32 times it are given as pairs of whole numbers, scaled by 2⁴⁰; a rotation by the first of them leads from each to the
next, to within a rounding. An entry of the first quarter is then judged at the product of two points, and the other
quarters follow by symmetry. -/

namespace Sys2Proof.Machine

/-! ## Points of the circle -/

/-- A point of the plane with whole coordinates. -/
abbrev GridPoint := Int × Int

namespace GridPoint

/-- The scale of the points: the circle has radius 2⁴⁰. -/
def radius : Int := 1099511627776

/-- The point as a complex number. -/
noncomputable def toComplex (p : GridPoint) : ℂ := ⟨(p.1 : ℝ), (p.2 : ℝ)⟩

/-- The product of two points as complex numbers; the first turned by the second. -/
def turn (p w : GridPoint) : GridPoint := (p.1 * w.1 - p.2 * w.2, p.1 * w.2 + p.2 * w.1)

/-- Point q is p turned by w and scaled back, to within 2 in each coordinate. -/
def follows (p w q : GridPoint) : Bool :=
  decide ((q.1 * radius - (turn p w).1).natAbs ≤ 2 * radius.natAbs) &&
    decide ((q.2 * radius - (turn p w).2).natAbs ≤ 2 * radius.natAbs)

/-- The point lies within e of the point of the circle at angle x. -/
def Near (p : GridPoint) (x e : ℝ) : Prop := ‖p.toComplex - radius * Complex.exp (x * Complex.I)‖ ≤ e

theorem toComplex_turn (p w : GridPoint) : (turn p w).toComplex = p.toComplex * w.toComplex := by
  apply Complex.ext <;> simp [toComplex, turn]

theorem norm_le (p : GridPoint) {a b : ℝ} (re : |(p.1 : ℝ)| ≤ a) (im : |(p.2 : ℝ)| ≤ b) : ‖p.toComplex‖ ≤ a + b :=
  (Complex.norm_le_abs_re_add_abs_im _).trans (add_le_add re im)

theorem Near.mono {p : GridPoint} {x e e' : ℝ} (near : p.Near x e) (le : e ≤ e') : p.Near x e' := le_trans near le

/-- The product of two points lies near the sum of their angles. -/
theorem Near.turn {p w : GridPoint} {x y e d : ℝ} (near : p.Near x e) (by_ : w.Near y d) :
    ‖(turn p w).toComplex - radius ^ 2 * Complex.exp ((x + y : ℝ) * Complex.I)‖ ≤ e * (radius + d) + radius * d := by
  have positive : (0 : ℝ) ≤ radius := by norm_num [radius]
  have unit (z : ℝ) : ‖(radius : ℂ) * Complex.exp (z * Complex.I)‖ = radius := by
    rw [norm_mul, Complex.norm_exp_ofReal_mul_I, mul_one]
    simpa using positive
  have size : ‖w.toComplex‖ ≤ radius + d := by
    calc ‖w.toComplex‖ = ‖radius * Complex.exp (y * Complex.I) + (w.toComplex - radius * Complex.exp (y * Complex.I))‖ := by
          rw [add_sub_cancel]
      _ ≤ radius + d := (norm_add_le _ _).trans (add_le_add (unit y).le by_)
  have split : (GridPoint.turn p w).toComplex - radius ^ 2 * Complex.exp ((x + y : ℝ) * Complex.I) =
      (p.toComplex - radius * Complex.exp (x * Complex.I)) * w.toComplex +
        radius * Complex.exp (x * Complex.I) * (w.toComplex - radius * Complex.exp (y * Complex.I)) := by
    rw [toComplex_turn, Complex.ofReal_add, add_mul, Complex.exp_add]
    ring
  rw [split]
  refine (norm_add_le _ _).trans (add_le_add ?_ ?_)
  · rw [norm_mul]
    exact mul_le_mul near size (norm_nonneg _) ((norm_nonneg _).trans near)
  · rw [norm_mul, unit]
    exact mul_le_mul_of_nonneg_left by_ positive

/-- A point that follows another by a turn lies near the turned angle. -/
theorem Near.follows {p w q : GridPoint} {x y e d : ℝ} (near : p.Near x e) (by_ : w.Near y d)
    (next : follows p w q = true) : q.Near (x + y) (e * (1 + d / radius) + d + 4) := by
  have positive : (0 : ℝ) < radius := by norm_num [radius]
  have turned := near.turn by_
  obtain ⟨re, im⟩ : (q.1 * radius - (GridPoint.turn p w).1).natAbs ≤ 2 * radius.natAbs ∧
      (q.2 * radius - (GridPoint.turn p w).2).natAbs ≤ 2 * radius.natAbs := by
    simpa [GridPoint.follows] using next
  have bound {z : Int} (small : z.natAbs ≤ 2 * radius.natAbs) : |(z : ℝ)| ≤ 2 * radius := by
    have absolute : ((2 * radius.natAbs : ℕ) : ℤ) = 2 * radius := rfl
    have : |z| ≤ 2 * radius := by rw [← absolute, Int.abs_eq_natAbs]; exact Int.ofNat_le.mpr small
    exact_mod_cast this
  have rounded := norm_le (q.1 * radius - (GridPoint.turn p w).1, q.2 * radius - (GridPoint.turn p w).2) (bound re)
    (bound im)
  have split : (radius : ℂ) * (q.toComplex - radius * Complex.exp ((x + y : ℝ) * Complex.I)) =
      GridPoint.toComplex (q.1 * radius - (GridPoint.turn p w).1, q.2 * radius - (GridPoint.turn p w).2) +
        ((GridPoint.turn p w).toComplex - radius ^ 2 * Complex.exp ((x + y : ℝ) * Complex.I)) := by
    have scaled : GridPoint.toComplex (q.1 * radius - (GridPoint.turn p w).1, q.2 * radius - (GridPoint.turn p w).2) =
        radius * q.toComplex - (GridPoint.turn p w).toComplex := by
      apply Complex.ext <;> simp [toComplex, mul_comm]
    rw [scaled]
    ring
  have total : radius * ‖q.toComplex - radius * Complex.exp ((x + y : ℝ) * Complex.I)‖ ≤
      2 * radius + 2 * radius + (e * (radius + d) + radius * d) := by
    have norm : ‖(radius : ℂ)‖ = radius := by simpa using positive.le
    rw [← norm, ← norm_mul, split, norm]
    exact (norm_add_le _ _).trans (add_le_add rounded turned)
  unfold Near
  rw [← mul_le_mul_iff_of_pos_left positive]
  refine total.trans (le_of_eq ?_)
  field_simp
  ring

end GridPoint

/-! ## The two lists of points -/

/-- The circle's points at 0 to 32 times the table's angle. -/
def finePoints : List GridPoint :=
  [(1099511627776, 0), (1099510334147, 1686629052), (1099506453265, 3373254134), (1099499985137, 5059871280),
   (1099490929780, 6746476518), (1099479287215, 8433065882), (1099465057468, 10119635402),
   (1099448240574, 11806181110), (1099428836573, 13492699036), (1099406845508, 15179185213),
   (1099382267434, 16865635671), (1099355102407, 18552046443), (1099325350491, 20238413561),
   (1099293011756, 21924733055), (1099258086278, 23611000959), (1099220574140, 25297213303),
   (1099180475430, 26983366121), (1099137790243, 28669455444), (1099092518677, 30355477305),
   (1099044660841, 32041427737), (1098994216847, 33727302772), (1098941186813, 35413098444),
   (1098885570864, 37098810785), (1098827369131, 38784435830), (1098766581752, 40469969610),
   (1098703208868, 42155408161), (1098637250630, 43840747516), (1098568707192, 45525983710),
   (1098497578716, 47211112776), (1098423865369, 48896130751), (1098347567325, 50581033668),
   (1098268684762, 52265817563), (1098187217867, 53950478471)]

/-- The circle's points at 0, 32, …, 1024 times the table's angle. -/
def coarsePoints : List GridPoint :=
  [(1099511627776, 0), (1098187217867, 53950478471), (1094217178761, 107770985514), (1087611074629, 161331862813),
   (1078384820155, 214504077523), (1066560642194, 267159533123), (1052167026225, 319171378006),
   (1035238647732, 370414311084), (1015816288660, 420764883643), (993946739174, 470101796741),
   (969682684934, 518306193436), (943082580171, 565261945112), (914210506869, 610855931251),
   (883136020380, 654978311948), (849933981865, 697522792521), (814684377941, 738386879591),
   (777472127994, 777472127994), (738386879591, 814684377941), (697522792521, 849933981865),
   (654978311948, 883136020380), (610855931251, 914210506869), (565261945112, 943082580171),
   (518306193436, 969682684934), (470101796741, 993946739174), (420764883643, 1015816288660),
   (370414311084, 1035238647732), (319171378006, 1052167026225), (267159533123, 1066560642194),
   (214504077523, 1078384820155), (161331862813, 1087611074629), (107770985514, 1094217178761),
   (53950478471, 1098187217867), (0, 1099511627776)]

/-- Each point of a list follows the one before it by a turn. -/
def chained (w : GridPoint) : List GridPoint → Bool
  | p :: q :: rest => GridPoint.follows p w q && chained w (q :: rest)
  | [_] => true
  | [] => true

/-- The points of a chain lie near the multiples of the turn's angle, the error growing by a little more at each turn. -/
theorem near_of_chained {w : GridPoint} {y d : ℝ} (by_ : w.Near y d) (d_nonneg : 0 ≤ d) (d_le : d ≤ 1024)
    (l : List GridPoint) : ∀ (p : GridPoint) (x : ℝ) (k : ℕ), chained w (p :: l) = true → k + l.length ≤ 64 →
      p.Near x (k * (d + 5)) → ∀ (i : ℕ) (q : GridPoint), (p :: l)[i]? = some q →
        q.Near (x + i * y) ((k + i : ℕ) * (d + 5)) := by
  induction l with
  | nil =>
    intro p x k _ _ near i q found
    cases i with
    | zero =>
      obtain rfl : p = q := by simpa using found
      simpa using near
    | succ i => simp at found
  | cons p' l ih =>
    intro p x k chain short near i q found
    cases i with
    | zero =>
      obtain rfl : p = q := by simpa using found
      simpa using near
    | succ i =>
      simp only [chained, Bool.and_eq_true] at chain
      have next : p'.Near (x + y) ((k + 1 : ℕ) * (d + 5)) := by
        refine (near.follows by_ chain.1).mono ?_
        have k_le : (k : ℝ) ≤ 64 := by
          have : k ≤ 64 := by omega
          exact_mod_cast this
        have growth : (k : ℝ) * (d + 5) * d ≤ 64 * 1029 * 1024 := by gcongr; linarith
        have slow : (k : ℝ) * (d + 5) * (d / GridPoint.radius) ≤ 1 := by
          rw [← mul_div_assoc, div_le_one (by norm_num [GridPoint.radius])]
          exact growth.trans (by norm_num [GridPoint.radius])
        push_cast
        linarith
      have rest := ih p' (x + y) (k + 1) chain.2 (by simp only [List.length_cons] at short; omega) next i q
        (by simpa using found)
      have angle : x + y + i * y = x + ((i + 1 : ℕ) : ℝ) * y := by push_cast; ring
      rw [← angle, show k + (i + 1) = k + 1 + i by omega]
      exact rest

theorem fine_chained : chained (1099510334147, 1686629052) finePoints = true := by decide

theorem coarse_chained : chained (1098187217867, 53950478471) coarsePoints = true := by decide

/-- The angle from one entry of the table to the next. -/
noncomputable def tableAngle : ℝ := 2 * Real.pi / 4096

/-- The first point of the fine list is the point of the table's angle. -/
theorem fine_first : GridPoint.Near (1099510334147, 1686629052) tableAngle 2 := by
  have low := Real.pi_gt_d20
  have high := Real.pi_lt_d20
  have angle_low : (0.00153398078788564122 : ℝ) < tableAngle := by unfold tableAngle; linarith
  have angle_high : tableAngle < 0.00153398078788564123 := by unfold tableAngle; linarith
  have positive : 0 < tableAngle := by linarith
  have small : |tableAngle| ≤ 1 := by rw [abs_of_pos positive]; linarith
  have cosine := Real.cos_bound small
  have sine := Real.sin_bound small
  rw [abs_of_pos positive] at cosine sine
  generalize tableAngle = x at *
  have square_low : (0.00153398078788564122 : ℝ) ^ 2 ≤ x ^ 2 := by gcongr
  have square_high : x ^ 2 ≤ (0.00153398078788564123 : ℝ) ^ 2 := by gcongr
  have cube_low : (0.00153398078788564122 : ℝ) ^ 3 ≤ x ^ 3 := by gcongr
  have cube_high : x ^ 3 ≤ (0.00153398078788564123 : ℝ) ^ 3 := by gcongr
  have fourth_high : x ^ 4 ≤ (0.00153398078788564123 : ℝ) ^ 4 := by gcongr
  have fifth_high : x ^ 5 ≤ (0.00153398078788564123 : ℝ) ^ 5 := by gcongr
  rw [abs_le] at cosine sine
  norm_num at square_low square_high cube_low cube_high fourth_high fifth_high
  have re : |(1099510334147 : ℝ) - 1099511627776 * Real.cos x| ≤ 1 := by
    rw [abs_le]; constructor <;> linarith
  have im : |(1686629052 : ℝ) - 1099511627776 * Real.sin x| ≤ 1 := by
    rw [abs_le]; constructor <;> linarith
  unfold GridPoint.Near
  refine (Complex.norm_le_abs_re_add_abs_im _).trans ?_
  have real_part : (GridPoint.toComplex (1099510334147, 1686629052) -
      GridPoint.radius * Complex.exp (x * Complex.I)).re = 1099510334147 - 1099511627776 * Real.cos x := by
    simp [GridPoint.toComplex, GridPoint.radius, Complex.exp_ofReal_mul_I_re]
  have imaginary_part : (GridPoint.toComplex (1099510334147, 1686629052) -
      GridPoint.radius * Complex.exp (x * Complex.I)).im = 1686629052 - 1099511627776 * Real.sin x := by
    simp [GridPoint.toComplex, GridPoint.radius, Complex.exp_ofReal_mul_I_im]
  rw [real_part, imaginary_part]
  linarith

/-- The first point of both lists is the point of angle 0. -/
theorem near_zero (e : ℝ) (nonneg : 0 ≤ e) : GridPoint.Near (1099511627776, 0) 0 e := by
  have exact_ : GridPoint.toComplex (1099511627776, 0) = GridPoint.radius := by
    apply Complex.ext <;> simp [GridPoint.toComplex, GridPoint.radius]
  unfold GridPoint.Near
  rw [exact_]
  simpa using nonneg

theorem fine_near {i : ℕ} {p : GridPoint} (found : finePoints[i]? = some p) :
    p.Near (i * tableAngle) (i * 7) := by
  have near := near_of_chained fine_first (by norm_num) (by norm_num) _ _ 0 0 fine_chained (by decide)
    (near_zero _ (by norm_num)) i p found
  norm_num at near
  exact near

theorem coarse_near {i : ℕ} {p : GridPoint} (found : coarsePoints[i]? = some p) :
    p.Near (i * (32 * tableAngle)) (i * 229) := by
  have by_ : GridPoint.Near (1098187217867, 53950478471) (32 * tableAngle) 224 := by
    have := fine_near (i := 32) (p := (1098187217867, 53950478471)) rfl
    norm_num at this
    exact this
  have near := near_of_chained by_ (by norm_num) (by norm_num) _ _ 0 0 coarse_chained (by decide)
    (near_zero _ (by norm_num)) i p found
  norm_num at near
  exact near

/-! ## The entries of the first quarter -/

/-- Entry 32a + b of the first quarter is the whole number next to 2047 times the second coordinate of the product of two
points, by more than the points' error. -/
def entryGood (a b : ℕ) : Bool :=
  match coarsePoints[a]?, finePoints[b]? with
  | some p, some w =>
    decide (2 * ((2047 * (GridPoint.turn p w).2 - quarterEntry (32 * a + b) * GridPoint.radius ^ 2).natAbs +
      2047 * 7600 * GridPoint.radius.natAbs) < GridPoint.radius.natAbs ^ 2)
  | _, _ => false

theorem entries_good : ∀ a < 32, ∀ b < 32, entryGood a b = true := by decide

theorem last_entry_good : entryGood 32 0 = true := by decide

/-- A value whose product with the square of the scale is known to within 7600 scales is the whole number q to within a
half, where the estimate lies nearer to q by more than that. -/
theorem rounded_of_close {r x q y : ℝ} (positive : 0 < r) (estimate : |y - r ^ 2 * x| ≤ 7600 * r)
    (near : 2 * (|2047 * y - q * r ^ 2| + 2047 * 7600 * r) < r ^ 2) : |2047 * x - q| < 1 / 2 := by
  have split : r ^ 2 * (2047 * x - q) = (2047 * y - q * r ^ 2) - 2047 * (y - r ^ 2 * x) := by ring
  have scaled : r ^ 2 * |2047 * x - q| ≤ |2047 * y - q * r ^ 2| + 2047 * |y - r ^ 2 * x| := by
    rw [← abs_of_pos (pow_pos positive 2), ← abs_mul, split, abs_of_pos (pow_pos positive 2)]
    refine (abs_sub _ _).trans ?_
    rw [abs_mul]
    norm_num
  have small : r ^ 2 * |2047 * x - q| < r ^ 2 * (1 / 2) := by linarith
  exact lt_of_mul_lt_mul_left small (pow_pos positive 2).le

/-- A good entry is the rounded sine. -/
theorem rounded_of_good {a b : ℕ} (a_le : a ≤ 32) (b_le : b ≤ 32) (good : entryGood a b = true) :
    |2047 * Real.sin ((32 * a + b : ℕ) * tableAngle) - (quarterEntry (32 * a + b) : ℝ)| < 1 / 2 := by
  unfold entryGood at good
  split at good
  next p w coarse fine =>
    have turned := (coarse_near coarse).turn (fine_near fine)
    have angle : (a : ℝ) * (32 * tableAngle) + b * tableAngle = (32 * a + b : ℕ) * tableAngle := by push_cast; ring
    rw [angle] at turned
    have error : (a : ℝ) * 229 * (GridPoint.radius + b * 7) + GridPoint.radius * (b * 7) ≤ 7600 * GridPoint.radius := by
      have a_le : (a : ℝ) ≤ 32 := by exact_mod_cast a_le
      have b_le : (b : ℝ) ≤ 32 := by exact_mod_cast b_le
      calc (a : ℝ) * 229 * (GridPoint.radius + b * 7) + GridPoint.radius * (b * 7)
          ≤ 32 * 229 * (GridPoint.radius + 32 * 7) + GridPoint.radius * (32 * 7) := by
            have positive : (0 : ℝ) ≤ GridPoint.radius := by norm_num [GridPoint.radius]
            gcongr
        _ ≤ 7600 * GridPoint.radius := by norm_num [GridPoint.radius]
    have sine := ((Complex.abs_im_le_norm _).trans turned).trans error
    have part : ((GridPoint.turn p w).toComplex -
        GridPoint.radius ^ 2 * Complex.exp (((32 * a + b : ℕ) * tableAngle : ℝ) * Complex.I)).im =
          ((GridPoint.turn p w).2 : ℝ) - GridPoint.radius ^ 2 * Real.sin ((32 * a + b : ℕ) * tableAngle) := by
      rw [Complex.sub_im, show (GridPoint.radius : ℂ) ^ 2 = ((GridPoint.radius ^ 2 : ℝ) : ℂ) by push_cast; rfl,
        Complex.im_ofReal_mul, Complex.exp_ofReal_mul_I_im]
      rfl
    rw [part] at sine
    have near : 2 * (|2047 * ((GridPoint.turn p w).2 : ℝ) - quarterEntry (32 * a + b) * (GridPoint.radius : ℝ) ^ 2| +
        2047 * 7600 * GridPoint.radius) < (GridPoint.radius : ℝ) ^ 2 := by
      have whole := of_decide_eq_true good
      zify at whole
      rw [show |GridPoint.radius| = GridPoint.radius from rfl] at whole
      exact_mod_cast whole
    exact rounded_of_close (by norm_num [GridPoint.radius]) sine near
  · cases good

/-- Every entry of the first quarter is the rounded sine. -/
theorem quarterEntry_rounded {n : ℕ} (n_le : n ≤ 1024) :
    |2047 * Real.sin (n * tableAngle) - (quarterEntry n : ℝ)| < 1 / 2 := by
  have split : 32 * (n / 32) + n % 32 = n := Nat.div_add_mod n 32
  have good : entryGood (n / 32) (n % 32) = true := by
    rcases Nat.lt_or_eq_of_le n_le with inside | rfl
    · exact entries_good _ (by omega) _ (by omega)
    · exact last_entry_good
  have rounded := rounded_of_good (by omega) (by omega) good
  rwa [split] at rounded

/-- Settles O13: an entry of the first quarter, and the other quarters by the sine's symmetry. -/
theorem sineTableIsTheRoundedSine : Obligations.SineTableIsTheRoundedSine := by
  intro j
  have bound := j.isLt
  have half : (2048 : ℝ) * tableAngle = Real.pi := by unfold tableAngle; ring
  have angle : 2 * Real.pi * (j.toNat : ℝ) / 4096 = j.toNat * tableAngle := by unfold tableAngle; ring
  rw [angle]
  have split : (j.toNat : ℝ) = 1024 * (j.toNat / 1024 : ℕ) + (j.toNat % 1024 : ℕ) := by
    exact_mod_cast (Nat.div_add_mod j.toNat 1024).symm
  have small : j.toNat % 1024 ≤ 1024 := (Nat.mod_lt _ (by norm_num)).le
  have rising := quarterEntry_rounded small
  have falling := quarterEntry_rounded (n := 1024 - j.toNat % 1024) (by omega)
  rw [Nat.cast_sub small] at falling
  unfold sineEntry
  dsimp only
  generalize j.toNat % 1024 = i at *
  have quarter : j.toNat / 1024 < 4 := by omega
  interval_cases j.toNat / 1024
  · rw [split]
    norm_num
    norm_num at rising
    exact rising
  · have symmetric : Real.sin (j.toNat * tableAngle) = Real.sin ((1024 - i) * tableAngle) := by
      rw [← Real.sin_pi_sub, ← half, split]
      congr 1
      push_cast
      ring
    rw [symmetric]
    exact_mod_cast falling
  · have symmetric : Real.sin (j.toNat * tableAngle) = -Real.sin (i * tableAngle) := by
      rw [← Real.sin_add_pi, ← half, split]
      congr 1
      push_cast
      ring
    rw [symmetric]
    push_cast
    rw [← abs_neg]
    convert rising using 2
    ring
  · have symmetric : Real.sin (j.toNat * tableAngle) = -Real.sin ((1024 - i) * tableAngle) := by
      rw [← Real.sin_neg, ← Real.sin_sub_two_pi, ← half, split]
      congr 1
      push_cast
      ring
    rw [symmetric]
    push_cast
    rw [← abs_neg]
    convert falling using 2
    push_cast
    ring

end Sys2Proof.Machine
end

section
/-! TL's transitions, one equation for each state entered (R46 to R49, R60), and what rests on them alone: the reads, the
counters, the stale message, the requests of CU and the frames that are not steps in ACQUIRE or TRACK (O12, O16 to O20). -/

namespace Sys2Proof.Machine
open Sys2Proof.Claims

/-! ## The statements' arithmetic is the model's (R33 to R38) -/

theorem limited_eq (b : Bank) (g : GainStep) : limited b g = limitStep b g := rfl

theorem effective_eq (b : Bank) (l : LoopRecord) : effective b l = l.effectiveStep b := by
  unfold effective LoopRecord.effectiveStep
  cases l.state <;> rfl

theorem ambiguous_eq (d : Int) : ambiguous d = isAmbiguous d := rfl

theorem signIs_signOf (d : Int) : signIs d (signOf d) := ⟨signOf_eq_pos d, signOf_eq_neg d⟩

namespace TrackingLoop

/-! ## The transitions (R46 to R49, R60) -/

theorem transition_halted (b : Bank) (cause : LoopCause) (stamp : Word) (t : TrackingLoop) :
    t.transition b .halted cause stamp = { t with
      loop := { t.loop with state := .halted }
      toNu := t.toNu ++ [.loop t.loop.state .halted cause stamp (limited b t.loop.stored)]
      toCu := t.toCu ++ [.state .halted, .boundary] } := rfl

theorem transition_lost (b : Bank) (cause : LoopCause) (stamp : Word) (t : TrackingLoop) :
    t.transition b .lost cause stamp = { t with
      loop := { t.loop with state := .lost, velocity := 0 }
      toNu := t.toNu ++ [.loop t.loop.state .lost cause stamp (limited b t.loop.stored)]
      toCu := t.toCu ++ [.state .lost, .boundary] } := rfl

theorem transition_coast (b : Bank) (cause : LoopCause) (stamp : Word) (t : TrackingLoop) :
    t.transition b .coast cause stamp = { t with
      loop := { t.loop with state := .coast, coastCount := 0 }
      toNu := t.toNu ++ [.loop t.loop.state .coast cause stamp (limited b t.loop.stored)]
      toCu := t.toCu ++ [.state .coast] } := rfl

theorem transition_acquire (b : Bank) (cause : LoopCause) (stamp : Word) (t : TrackingLoop) :
    t.transition b .acquire cause stamp = { t with
      loop := { t.loop with
        state := .acquire, nPlus := 0, nMinus := 0, position := 0, lockRun := 0
        velocity := if cause = .start then 0 else t.loop.velocity }
      toNu := t.toNu ++ [.loop t.loop.state .acquire cause stamp b.ceiling]
      toCu := t.toCu ++ [.state .acquire] } := rfl

/-- TRACK entered from COAST, or from any state but ACQUIRE, keeps the stored step (R60). -/
theorem transition_track_kept {b : Bank} {cause : LoopCause} {stamp : Word} {t : TrackingLoop}
    (other : t.loop.state ≠ .acquire) :
    t.transition b .track cause stamp = { t with
      loop := { t.loop with state := .track, nPlus := 0, nMinus := 0, position := 0, lockRun := 0 }
      toNu := t.toNu ++ [.loop t.loop.state .track cause stamp (limited b t.loop.stored)]
      toCu := t.toCu ++ [.state .track] } := by
  simp [transition, enter, other, LoopRecord.effectiveStep, limited_eq]

/-- TRACK entered from ACQUIRE starts at the ceiling (R60). -/
theorem transition_track_locked {b : Bank} {cause : LoopCause} {stamp : Word} {t : TrackingLoop}
    (acquire : t.loop.state = .acquire) :
    t.transition b .track cause stamp = { t with
      loop := { t.loop with
        state := .track, nPlus := 0, nMinus := 0, position := 0, lockRun := 0, stored := b.ceiling }
      toNu := t.toNu ++ [.loop .acquire .track cause stamp (limited b b.ceiling)]
      toCu := t.toCu ++ [.state .track] } := by
  simp [transition, enter, acquire, LoopRecord.effectiveStep, limited_eq]

end TrackingLoop

/-! ## What a command finds on TL's paths -/

theorem exec_frameMessage {s : State} {k : BitVec 4} {sine cosine : Int} {usable : Bool} {stamp : Word}
    {rest : List SiTlMsg} (next : FrameNext s k sine cosine usable stamp rest) :
    exec .frameMessage s =
      .next { s.takeSiTl rest with tl := s.tl.takeFrame s.bank k sine cosine usable stamp } := by
  obtain ⟨running, path⟩ := next
  change execFrameMessage s = _
  simp only [execFrameMessage, State.running_of_running running, path]

namespace TrackingLoop

theorem takeStale_still {t : TrackingLoop} (state : t.loop.state = .halted ∨ t.loop.state = .lost) (b : Bank) :
    t.takeStale b = { t with loop := { t.loop with usable := false } } := by
  unfold takeStale
  rcases state with state | state <;> rw [state] <;> rfl

theorem takeStale_falls {t : TrackingLoop}
    (state : t.loop.state = .acquire ∨ t.loop.state = .track ∨ t.loop.state = .coast) (b : Bank) :
    t.takeStale b = (t.note false t.loop.stamp).transition b .lost .healthLost t.loop.stamp := by
  unfold takeStale
  rcases state with state | state | state <;> rw [state]

section
variable {b : Bank} {k : BitVec 4} {sine cosine : Int} {usable : Bool} {stamp : Word} {t : TrackingLoop}

/-! A frame message by the state it finds (R42 to R44). -/

theorem takeFrame_halted (state : t.loop.state = .halted) :
    t.takeFrame b k sine cosine usable stamp = t.note usable stamp := by
  unfold takeFrame takeNoted
  rw [show (t.note usable stamp).loop.state = _ from state]

theorem takeFrame_lost_unusable (state : t.loop.state = .lost) :
    t.takeFrame b k sine cosine false stamp = t.note false stamp := by
  unfold takeFrame takeNoted
  rw [show (t.note false stamp).loop.state = _ from state]

theorem takeFrame_acquire_unusable (state : t.loop.state = .acquire) :
    t.takeFrame b k sine cosine false stamp = (t.note false stamp).transition b .lost .healthLost stamp := by
  unfold takeFrame takeNoted
  rw [show (t.note false stamp).loop.state = _ from state]

theorem takeFrame_track_unusable (state : t.loop.state = .track) :
    t.takeFrame b k sine cosine false stamp =
      ((t.note false stamp).transition b .coast .healthLost stamp).coastStep b k stamp := by
  unfold takeFrame takeNoted
  rw [show (t.note false stamp).loop.state = _ from state]

theorem takeFrame_coast_unusable (state : t.loop.state = .coast) :
    t.takeFrame b k sine cosine false stamp = (t.note false stamp).coastStep b k stamp := by
  unfold takeFrame takeNoted
  rw [show (t.note false stamp).loop.state = _ from state]

theorem takeFrame_coast_usable (state : t.loop.state = .coast) :
    t.takeFrame b k sine cosine true stamp =
      ((t.note true stamp).transition b (if b.holdOnRecovery then .track else .acquire) .recovered stamp).step b k sine
        cosine stamp := by
  unfold takeFrame takeNoted
  rw [show (t.note true stamp).loop.state = _ from state]

theorem takeFrame_lost_usable (state : t.loop.state = .lost) :
    t.takeFrame b k sine cosine true stamp =
      ((t.note true stamp).transition b .acquire .recovered stamp).step b k sine cosine stamp := by
  unfold takeFrame takeNoted
  rw [show (t.note true stamp).loop.state = _ from state]

theorem takeFrame_steps (state : t.loop.state = .acquire ∨ t.loop.state = .track) :
    t.takeFrame b k sine cosine true stamp = (t.note true stamp).step b k sine cosine stamp := by
  unfold takeFrame takeNoted
  rcases state with state | state <;> rw [show (t.note true stamp).loop.state = _ from state]

end

end TrackingLoop

/-- Settles O18: in ACQUIRE, TRACK and COAST the one transition to LOST, elsewhere the record of health alone. -/
theorem staleMessage : Obligations.StaleMessage := by
  intro s rest running path
  have taken : exec .staleMessage s = .next { s.takeSiTl rest with tl := s.tl.takeStale s.bank } := by
    change execStaleMessage s = _
    simp only [execStaleMessage, State.running_of_running running, path]
  dsimp only
  rw [taken]
  refine ⟨?_, ?_⟩
  · intro state
    rw [TrackingLoop.takeStale_still state]
    rfl
  · intro state
    rw [TrackingLoop.takeStale_falls state, TrackingLoop.transition_lost]
    rfl

/-- Settles O20: both payloads read the loop record as it stands. -/
theorem loopReads : Obligations.LoopReads := by
  intro s p tag rest running
  dsimp only
  rw [effective_eq]
  refine ⟨fun path => ?_, fun path => ?_⟩
  · change execReadAngle s = _
    simp only [execReadAngle, State.running_of_running running, path]
    rfl
  · change execReadLoop s = _
    simp only [execReadLoop, State.running_of_running running, path]
    rfl

/-- Settles O12: the two requests at SI, and what SI passes on at TL. -/
theorem countersReadAndCleared : Obligations.CountersReadAndCleared := by
  intro s p tag running
  refine ⟨fun rest path => ?_, fun rest path => ?_, fun rejected duplicate gap rest path => ?_, fun rest path => ?_⟩
  · change execReadCounters s = _
    simp only [execReadCounters, State.running_of_running running, path]
    rfl
  · change execCountersClear s = _
    simp only [execCountersClear, State.running_of_running running, path]
  · change execCountersAtLoop s = _
    simp only [execCountersAtLoop, State.running_of_running running, path]
    rfl
  · change execCountersAtLoop s = _
    simp only [execCountersAtLoop, State.running_of_running running, path]
    rfl

/-! ## START, HALT and RELOCK (R50 to R52) -/

theorem exec_start {s : State} {p : Port} {tag : Byte} {rest : List Request} (running : s.phase = .running)
    (path : s.cu.toTl = ⟨p, tag, .start⟩ :: rest) :
    exec .start s = .next { s.takeCuTl rest with tl := s.tl.start s.bank p tag } := by
  change execStart s = _
  simp only [execStart, State.running_of_running running, path]

theorem exec_halt {s : State} {p : Port} {tag : Byte} {rest : List Request} (running : s.phase = .running)
    (path : s.cu.toTl = ⟨p, tag, .halt⟩ :: rest) :
    exec .halt s = .next { s.takeCuTl rest with tl := s.tl.halt s.bank p tag } := by
  change execHalt s = _
  simp only [execHalt, State.running_of_running running, path]

theorem exec_relock {s : State} {p : Port} {tag : Byte} {rest : List Request} (running : s.phase = .running)
    (path : s.cu.toTl = ⟨p, tag, .relock⟩ :: rest) :
    exec .relock s = .next { s.takeCuTl rest with tl := s.tl.relock s.bank p tag } := by
  change execRelock s = _
  simp only [execRelock, State.running_of_running running, path]

theorem TrackingLoop.start_acquires {t : TrackingLoop} (halted : t.loop.state = .halted) (usable : t.loop.usable = true)
    (b : Bank) (p : Port) (tag : Byte) :
    t.start b p tag = (t.transition b .acquire .start t.loop.stamp).answer p tag .ok [LoopState.acquire.byte] := by
  simp only [start, halted, usable, if_true]

theorem TrackingLoop.start_loses {t : TrackingLoop} (halted : t.loop.state = .halted) (unusable : t.loop.usable = false)
    (b : Bank) (p : Port) (tag : Byte) :
    t.start b p tag = (t.transition b .lost .start t.loop.stamp).answer p tag .ok [LoopState.lost.byte] := by
  simp only [start, halted, unusable, Bool.false_eq_true, if_false]

theorem TrackingLoop.start_refused {t : TrackingLoop} (other : t.loop.state ≠ .halted) (b : Bank) (p : Port)
    (tag : Byte) : t.start b p tag = t.answer p tag .wrongState [t.loop.state.byte] := by
  unfold start
  cases state : t.loop.state <;> first | contradiction | rfl

theorem TrackingLoop.halt_still {t : TrackingLoop} (halted : t.loop.state = .halted) (b : Bank) (p : Port)
    (tag : Byte) : t.halt b p tag = t.answer p tag .ok [] := by
  unfold halt
  rw [halted]

theorem TrackingLoop.halt_moves {t : TrackingLoop} (other : t.loop.state ≠ .halted) (b : Bank) (p : Port)
    (tag : Byte) : t.halt b p tag = (t.transition b .halted .halt t.loop.stamp).answer p tag .ok [] := by
  unfold halt
  cases state : t.loop.state <;> first | contradiction | rfl

theorem TrackingLoop.relock_moves {t : TrackingLoop} (state : t.loop.state = .track ∨ t.loop.state = .coast) (b : Bank)
    (p : Port) (tag : Byte) :
    t.relock b p tag = (t.transition b .acquire .relock t.loop.stamp).answer p tag .ok [] := by
  unfold relock
  rcases state with state | state <;> rw [state]

theorem TrackingLoop.relock_refused {t : TrackingLoop} (not_track : t.loop.state ≠ .track)
    (not_coast : t.loop.state ≠ .coast) (b : Bank) (p : Port) (tag : Byte) :
    t.relock b p tag = t.answer p tag .wrongState [t.loop.state.byte] := by
  unfold relock
  cases state : t.loop.state <;> first | contradiction | rfl

/-- Settles O19: each request by the loop's state, with its one transition. -/
theorem startHaltAndRelock : Obligations.StartHaltAndRelock := by
  intro s p tag rest running
  refine ⟨fun path => ?_, fun path => ?_, fun path => ?_⟩
  · rw [exec_start running path]
    refine ⟨fun halted usable => ?_, fun halted unusable => ?_, fun other => ?_⟩
    · rw [TrackingLoop.start_acquires halted usable, TrackingLoop.transition_acquire]
      dsimp only
      rw [List.append_nil]
      rfl
    · rw [TrackingLoop.start_loses halted unusable, TrackingLoop.transition_lost]
      dsimp only
      rw [List.append_assoc]
      rfl
    · rw [TrackingLoop.start_refused other]
      rfl
  · rw [exec_halt running path]
    refine ⟨fun halted => ?_, fun other => ?_⟩
    · rw [TrackingLoop.halt_still halted]
      rfl
    · rw [TrackingLoop.halt_moves other, TrackingLoop.transition_halted]
      dsimp only
      rw [List.append_assoc]
      rfl
  · rw [exec_relock running path]
    refine ⟨fun state => ?_, fun not_track not_coast => ?_⟩
    · rw [TrackingLoop.relock_moves state, TrackingLoop.transition_acquire]
      dsimp only
      rw [List.append_nil]
      rfl
    · rw [TrackingLoop.relock_refused not_track not_coast]
      rfl

/-! ## Frames that recover the loop (R42, R44) -/

/-- Settles O17: the records, then the transition, and the frame taken as a step of the state entered. -/
theorem usableFrameRecovers : Obligations.UsableFrameRecovers := by
  intro s k sine cosine stamp rest next
  have taken := exec_frameMessage next
  have again (tl : TrackingLoop) : exec .frameMessage { s with tl := tl } =
      .next { ({ s with tl := tl } : State).takeSiTl rest with tl := tl.takeFrame s.bank k sine cosine true stamp } :=
    exec_frameMessage (s := { s with tl := tl }) next
  dsimp only
  rw [taken, again, again]
  refine ⟨fun halted => ?_, fun coast hold => ?_, fun coast hold => ?_, fun lost => ?_⟩
  · rw [TrackingLoop.takeFrame_halted halted]
    rfl
  · rw [TrackingLoop.takeFrame_coast_usable coast, TrackingLoop.takeFrame_steps (.inl rfl), hold, if_neg (by simp),
      TrackingLoop.transition_acquire]
    rfl
  · rw [TrackingLoop.takeFrame_coast_usable coast, TrackingLoop.takeFrame_steps (.inr rfl), hold, if_pos rfl,
      TrackingLoop.transition_track_kept (by simp [TrackingLoop.note, coast])]
    rfl
  · rw [TrackingLoop.takeFrame_lost_usable lost, TrackingLoop.takeFrame_steps (.inl rfl),
      TrackingLoop.transition_acquire]
    rfl

/-! ## COAST (R40 to R43) -/

theorem satInc8_byte (c : BitVec 8) : satInc8 c = if c = 255 then 255 else c + 1 := by
  revert c; decide

/-- The velocity check in the statements' words (R34). -/
theorem TrackingLoop.checkVelocity_checked (b : Bank) (stamp : Word) (v : Int) (t : TrackingLoop) :
    t.checkVelocity b stamp v = { t with
      loop := { t.loop with
        velocity := clamped b v, clamp := clamps b v
        overspeed := if clamps b v then satAdd16 t.loop.overspeed 1 else t.loop.overspeed }
      toNu := t.toNu ++ overspeedReport b t.loop v stamp } := by
  rw [checkVelocity_eq]
  simp only [overspeedReport, clamps, clamped, decide_eq_true_eq]

/-- A step in COAST, before it is judged: the loop record and the reports (R34, R38 to R40). -/
theorem TrackingLoop.coastStep_eq (b : Bank) (k : BitVec 4) (stamp : Word) (t : TrackingLoop) :
    let v := clamped b t.loop.velocity
    let d := (k.toNat + 1) * v
    let a := t.loop.acc + BitVec.ofInt 24 d
    let n : BitVec 8 := if t.loop.coastCount = 255 then 255 else t.loop.coastCount + 1
    let u : TrackingLoop := { t with
      loop := { t.loop with
        acc := a, velocity := v, clamp := clamps b t.loop.velocity, coastCount := n
        overspeed := if clamps b t.loop.velocity then satAdd16 t.loop.overspeed 1 else t.loop.overspeed
        ambiguous := if ambiguous d then satAdd16 t.loop.ambiguous 1 else t.loop.ambiguous }
      toNu := t.toNu ++ overspeedReport b t.loop t.loop.velocity stamp
      toTt := t.toTt ++
        [⟨t.loop.acc.extractLsb' 8 16, a.extractLsb' 8 16, signOf d, .coast, stamp, ambiguous d⟩] }
    t.coastStep b k stamp =
      if ambiguous d then u.transition b .lost .ambiguousStep stamp
      else if b.coastLimit ≤ n.toNat then u.transition b .lost .coastLimit stamp else u := by
  dsimp only
  rw [← satInc8_byte]
  unfold coastStep extrapolate
  rw [checkVelocity_checked]
  rfl

/-- Settles O16: the records and transitions outside COAST, and in COAST the step and its end. -/
theorem unusableFrame : Obligations.UnusableFrame := by
  intro s k sine cosine stamp rest next
  have taken := exec_frameMessage next
  have again (tl : TrackingLoop) : exec .frameMessage { s with tl := tl } =
      .next { ({ s with tl := tl } : State).takeSiTl rest with tl := tl.takeFrame s.bank k sine cosine false stamp } :=
    exec_frameMessage (s := { s with tl := tl }) next
  dsimp only
  rw [taken, again]
  refine ⟨?_, fun acquire => ?_, fun track => ?_, fun coast => ⟨signOf _, signIs_signOf _, ?_⟩⟩
  · rintro (state | state)
    · rw [TrackingLoop.takeFrame_halted state]
      rfl
    · rw [TrackingLoop.takeFrame_lost_unusable state]
      rfl
  · rw [TrackingLoop.takeFrame_acquire_unusable acquire, TrackingLoop.transition_lost, ← acquire]
    rfl
  · rw [TrackingLoop.takeFrame_track_unusable track, TrackingLoop.takeFrame_coast_unusable rfl,
      TrackingLoop.transition_coast, ← track]
    rfl
  · rw [TrackingLoop.takeFrame_coast_unusable coast, TrackingLoop.coastStep_eq]
    refine ⟨fun amb => ?_, fun sure limit => ?_, fun sure more => ?_⟩
    · rw [if_pos (by exact amb), TrackingLoop.transition_lost, ← coast]
      rfl
    · rw [if_neg (by exact Bool.eq_false_iff.mp sure), if_pos (by exact limit), TrackingLoop.transition_lost, ← coast]
      rfl
    · rw [if_neg (by exact Bool.eq_false_iff.mp sure), if_neg (by exact not_le.mpr more)]
      rfl

end Sys2Proof.Machine
end

section
/-! A step in ACQUIRE or TRACK (R33 to R39) and its judgement windows, the gain ladder and the lock judgement (R57 to R65):
O14 and O15. -/

namespace Sys2Proof.Machine
open Sys2Proof.Claims

theorem Sign.toInt_eq_one (s : Sign) : s.toInt = 1 ↔ s = .pos := by cases s <;> decide

theorem Sign.toInt_eq_neg_one (s : Sign) : s.toInt = -1 ↔ s = .neg := by cases s <;> decide

/-- The error sign of a step, as a sign and as a number (R36). -/
theorem stepSign_eq (l : LoopRecord) (k : BitVec 4) (sine cosine : Int) :
    stepSign l k sine cosine = (errorSign sine cosine (angleOf (l.predicted k))).toInt := by
  rw [errorSign, signOf_toInt]
  rfl

theorem correction_eq (b : Bank) (l : LoopRecord) (s : Int) : correction b l s = s * gainKp (l.effectiveStep b) := by
  rw [correction, effective_eq, gainKp_eq]

theorem candidate_eq (b : Bank) (l : LoopRecord) (s : Int) :
    candidate b l s = l.velocity + s * gainKi (l.effectiveStep b) := by
  rw [candidate, effective_eq, gainKi_eq]

theorem displacement_eq (b : Bank) (l : LoopRecord) (k : BitVec 4) (s : Sign) :
    displacement b l k s.toInt = l.displacement b k s := by
  rw [displacement, correction_eq]
  rfl

/-- The ceiling of a bank whose ceiling is at or below its floor is within the limits (R35, R174). -/
theorem limited_ceiling {b : Bank} (ordered : b.ceiling ≤ b.floor) : limited b b.ceiling = b.ceiling := by
  unfold limited
  rw [if_neg (lt_irrefl _), if_neg (not_lt.mpr ordered)]

namespace TrackingLoop

variable {b : Bank} {k : BitVec 4} {sine cosine : Int} {s : Sign} {stamp : Word} {t : TrackingLoop}

/-- The new accumulator and velocity of a step (R37, items 1 to 5). -/
theorem correct_eq : t.correct b k s stamp = { t with
    loop := { t.loop with
      acc := predicted t.loop k + BitVec.ofInt 24 (correction b t.loop s.toInt)
      velocity := clamped b (candidate b t.loop s.toInt)
      clamp := clamps b (candidate b t.loop s.toInt)
      overspeed := if clamps b (candidate b t.loop s.toInt) then satAdd16 t.loop.overspeed 1 else t.loop.overspeed }
    toNu := t.toNu ++ overspeedReport b t.loop (candidate b t.loop s.toInt) stamp } := by
  rw [candidate_eq, correction_eq]
  unfold correct
  dsimp only
  rw [checkVelocity_checked]
  rfl

theorem step_acquire (acquire : t.loop.state = .acquire) :
    t.step b k sine cosine stamp =
      (t.correct b k (errorSign sine cosine (angleOf (t.loop.predicted k))) stamp).window b .acquire
        (errorSign sine cosine (angleOf (t.loop.predicted k))) stamp := by
  unfold step
  rw [acquire]

theorem step_track (track : t.loop.state = .track) :
    t.step b k sine cosine stamp =
      let s := errorSign sine cosine (angleOf (t.loop.predicted k))
      let d := t.loop.displacement b k s
      let u := ((t.correct b k s stamp).report .track t.loop.acc d stamp).window b .track s stamp
      if isAmbiguous d then u.transition b .acquire .ambiguousStep stamp else u := by
  unfold step
  rw [track]

/-- What an ambiguous TRACK step's transition to ACQUIRE leaves of the step (R46, R65). -/
theorem ambiguous_keeps (b : Bank) (stamp : Word) (amb : Bool) (u : TrackingLoop) :
    let v := if amb then u.transition b .acquire .ambiguousStep stamp else u
    v.loop.acc = u.loop.acc ∧ v.loop.velocity = u.loop.velocity ∧ v.loop.clamp = u.loop.clamp ∧
      v.loop.overspeed = u.loop.overspeed ∧ v.loop.usable = u.loop.usable ∧ v.loop.stamp = u.loop.stamp ∧
      v.loop.coastCount = u.loop.coastCount ∧ v.loop.ambiguous = u.loop.ambiguous ∧ v.toHp = u.toHp ∧
      v.toTt = u.toTt := by
  cases amb
  · exact ⟨rfl, rfl, rfl, rfl, rfl, rfl, rfl, rfl, rfl, rfl⟩
  · exact ⟨rfl, rfl, rfl, rfl, rfl, rfl, rfl, rfl, rfl, rfl⟩


/-- A step in TRACK gives the correction, the ambiguity count and the one report, whatever its window and an ambiguity then
make of the loop (R37 to R39). -/
theorem step_track_keeps (track : t.loop.state = .track) :
    let e := errorSign sine cosine (angleOf (t.loop.predicted k))
    let d := t.loop.displacement b k e
    let c := t.correct b k e stamp
    let u := t.step b k sine cosine stamp
    u.loop.acc = c.loop.acc ∧ u.loop.velocity = c.loop.velocity ∧ u.loop.clamp = c.loop.clamp ∧
      u.loop.overspeed = c.loop.overspeed ∧ u.loop.usable = c.loop.usable ∧ u.loop.stamp = c.loop.stamp ∧
      u.loop.coastCount = c.loop.coastCount ∧ u.toHp = c.toHp ∧
      u.loop.ambiguous = (if isAmbiguous d then satAdd16 c.loop.ambiguous 1 else c.loop.ambiguous) ∧
      u.toTt = c.toTt ++ [⟨angleOf t.loop.acc, angleOf c.loop.acc, signOf d, .track, stamp, isAmbiguous d⟩] := by
  dsimp only
  rw [step_track track]
  dsimp only
  generalize errorSign sine cosine (angleOf (t.loop.predicted k)) = e
  generalize t.correct b k e stamp = c
  obtain ⟨acc, velocity, clamp, overspeed, usable, stamped, coast, ambiguous, toHp, toTt⟩ :=
    ambiguous_keeps b stamp (isAmbiguous (t.loop.displacement b k e))
      ((c.report .track t.loop.acc (t.loop.displacement b k e) stamp).window b .track e stamp)
  obtain ⟨acc', velocity', clamp', overspeed', usable', stamped', coast', ambiguous', toHp', toTt'⟩ :=
    window_keeps b .track e stamp (c.report .track t.loop.acc (t.loop.displacement b k e) stamp) (.inl rfl)
  exact ⟨acc.trans acc', velocity.trans velocity', clamp.trans clamp', overspeed.trans overspeed', usable.trans usable',
    stamped.trans stamped', coast.trans coast', toHp.trans toHp', ambiguous.trans ambiguous', toTt.trans toTt'⟩

end TrackingLoop

/-- Settles O14: the correction and the report of the step; the window and a transition keep what they give. -/
theorem loopStepArithmetic : Obligations.LoopStepArithmetic := by
  intro s k sine cosine stamp rest next state
  dsimp only
  rw [stepSign_eq]
  refine ⟨_, exec_frameMessage next, ?_⟩
  rw [TrackingLoop.takeFrame_steps state]
  generalize sign : errorSign sine cosine (angleOf (s.tl.loop.predicted k)) = e
  have sign' : errorSign sine cosine (angleOf ((s.tl.note true stamp).loop.predicted k)) = e := sign
  rcases state with acquire | track
  · rw [TrackingLoop.step_acquire (t := s.tl.note true stamp) acquire, sign', TrackingLoop.correct_eq]
    obtain ⟨acc, velocity, clamp, overspeed, usable, stamped, coast, ambiguous, toHp, toTt⟩ :=
      TrackingLoop.window_keeps s.bank .acquire e stamp _ (.inr rfl)
    rw [acc, velocity, clamp, overspeed, usable, stamped, coast, toHp, toTt, ambiguous]
    exact ⟨rfl, rfl, rfl, rfl, rfl, rfl, rfl, rfl, fun _ => ⟨rfl, rfl⟩,
      fun track => by simp [acquire] at track⟩
  · obtain ⟨acc, velocity, clamp, overspeed, usable, stamped, coast, toHp, ambiguous, toTt⟩ :=
      TrackingLoop.step_track_keeps (b := s.bank) (k := k) (sine := sine) (cosine := cosine) (stamp := stamp)
        (t := s.tl.note true stamp) track
    rw [acc, velocity, clamp, overspeed, usable, stamped, coast, toHp, toTt, ambiguous, sign', TrackingLoop.correct_eq,
      displacement_eq, ambiguous_eq]
    exact ⟨rfl, rfl, rfl, rfl, rfl, rfl, rfl, rfl, fun acquire => by simp [acquire] at track,
      fun _ => ⟨rfl, signOf _, signIs_signOf _, rfl⟩⟩

/-! ## The judgement windows (R57 to R65) -/

namespace TrackingLoop

variable {b : Bank} {s : Sign} {stamp : Word} {t : TrackingLoop}

/-- A step counted into a window that goes on (R57). -/
theorem window_open {made : LoopState} (goes_on : ¬ b.window ≤ t.loop.position + 1) :
    t.window b made s stamp = { t with loop := countStep s t.loop } :=
  if_neg goes_on

/-- A TRACK window that ends: the boundary message and the ladder move (R58, R59, R61). -/
theorem window_ended_track (ended : b.window ≤ t.loop.position + 1) :
    t.window b .track s stamp = { t with
      loop := { t.loop with
        nPlus := 0, nMinus := 0, position := 0
        stored := ladderMove b t.loop.stored
          (imbalance (countStep s t.loop).nPlus (countStep s t.loop).nMinus b.window) }
      toCu := t.toCu ++ [.boundary] } :=
  if_pos ended

/-- An ACQUIRE window that ends with an imbalance above Tl clears the lock run (R63). -/
theorem window_ended_unlocked (ended : b.window ≤ t.loop.position + 1)
    (high : b.tl < imbalance (countStep s t.loop).nPlus (countStep s t.loop).nMinus b.window) :
    t.window b .acquire s stamp = { t with
      loop := { t.loop with nPlus := 0, nMinus := 0, position := 0, lockRun := 0 }
      toCu := t.toCu ++ [.boundary] } :=
  (if_pos ended).trans (if_neg (not_le.mpr high))

/-- An ACQUIRE window that ends with a small imbalance adds to the lock run (R63). -/
theorem window_ended_run (ended : b.window ≤ t.loop.position + 1)
    (low : imbalance (countStep s t.loop).nPlus (countStep s t.loop).nMinus b.window ≤ b.tl)
    (more : t.loop.lockRun + 1 < b.lw) :
    t.window b .acquire s stamp = { t with
      loop := { t.loop with nPlus := 0, nMinus := 0, position := 0, lockRun := t.loop.lockRun + 1 }
      toCu := t.toCu ++ [.boundary] } :=
  (if_pos ended).trans ((if_pos low).trans (if_neg (not_le.mpr more)))

/-- The lock run of Lw windows locks the loop (R64). -/
theorem window_ended_locked (ended : b.window ≤ t.loop.position + 1)
    (low : imbalance (countStep s t.loop).nPlus (countStep s t.loop).nMinus b.window ≤ b.tl)
    (complete : b.lw ≤ t.loop.lockRun + 1) :
    t.window b .acquire s stamp = transition b .track .locked stamp { t with
      loop := { t.loop with nPlus := 0, nMinus := 0, position := 0, lockRun := t.loop.lockRun + 1 }
      toCu := t.toCu ++ [.boundary] } :=
  (if_pos ended).trans ((if_pos low).trans (if_pos complete))

end TrackingLoop

/-- The counts of a window, in the statements' words (R57). -/
theorem countStep_counts (s : Sign) (l : LoopRecord) :
    (TrackingLoop.countStep s l).nPlus = (if s.toInt = 1 then l.nPlus + 1 else l.nPlus) ∧
      (TrackingLoop.countStep s l).nMinus = (if s.toInt = -1 then l.nMinus + 1 else l.nMinus) := by
  simp only [Sign.toInt_eq_one, Sign.toInt_eq_neg_one]
  exact ⟨rfl, rfl⟩

/-- Settles O15: in TRACK the window and then an ambiguity, in ACQUIRE the window and the lock judgement. -/
theorem windowsLadderAndLock : Obligations.WindowsLadderAndLock := by
  intro s k sine cosine stamp rest next ordered
  dsimp only
  rw [stepSign_eq]
  generalize sign : errorSign sine cosine (angleOf (s.tl.loop.predicted k)) = e
  have sign' : errorSign sine cosine (angleOf ((s.tl.note true stamp).loop.predicted k)) = e := sign
  obtain ⟨np, nm⟩ := countStep_counts e s.tl.loop
  rw [← np, ← nm]
  refine ⟨fun track => ⟨_, exec_frameMessage next, ?_⟩, fun acquire => ⟨_, exec_frameMessage next, ?_⟩⟩
  · rw [TrackingLoop.takeFrame_steps (.inr track), TrackingLoop.step_track (t := s.tl.note true stamp) track]
    dsimp only
    rw [sign', displacement_eq, ambiguous_eq, show (s.tl.note true stamp).loop.displacement s.bank k e =
      s.tl.loop.displacement s.bank k e from rfl, TrackingLoop.correct_eq]
    by_cases ended : s.bank.window ≤ s.tl.loop.position + 1
    · rw [TrackingLoop.window_ended_track (by exact ended)]
      refine ⟨fun _ => ?_, fun goes_on => absurd ended goes_on, fun sure => ?_, fun amb => ?_⟩
      · split <;> rfl
      · rw [sure]
        exact ⟨track, rfl, rfl, fun _ => ⟨rfl, rfl⟩, fun goes_on => absurd ended goes_on⟩
      · rw [amb, if_pos rfl, TrackingLoop.transition_acquire]
        refine ⟨rfl, rfl, rfl, ?_, fun _ => List.append_assoc .., fun goes_on => absurd ended goes_on⟩
        rw [← track]
        rfl
    · rw [TrackingLoop.window_open (by exact ended)]
      refine ⟨fun past => absurd past ended, fun _ => ?_, fun sure => ?_, fun amb => ?_⟩
      · split <;> rfl
      · rw [sure]
        exact ⟨track, rfl, rfl, fun past => absurd past ended, fun _ => ⟨rfl, rfl⟩⟩
      · rw [amb, if_pos rfl, TrackingLoop.transition_acquire]
        refine ⟨rfl, rfl, rfl, ?_, fun past => absurd past ended, fun _ => rfl⟩
        rw [← track]
        rfl
  · rw [TrackingLoop.takeFrame_steps (.inl acquire), TrackingLoop.step_acquire (t := s.tl.note true stamp) acquire,
      sign', TrackingLoop.correct_eq]
    refine ⟨fun goes_on => ?_, fun ended low complete => ?_, fun ended low more => ?_, fun ended high => ?_⟩
    · rw [TrackingLoop.window_open (by exact goes_on)]
      exact ⟨acquire, rfl, rfl, rfl, rfl, rfl⟩
    · rw [TrackingLoop.window_ended_locked (by exact ended) (by exact low) (by exact complete),
        TrackingLoop.transition_track_locked (by exact acquire), limited_ceiling ordered]
      exact ⟨rfl, rfl, rfl, rfl, rfl, List.append_assoc ..⟩
    · rw [TrackingLoop.window_ended_run (by exact ended) (by exact low) (by exact more)]
      exact ⟨acquire, rfl, rfl, rfl, rfl, rfl⟩
    · rw [TrackingLoop.window_ended_unlocked (by exact ended) (by exact high)]
      exact ⟨acquire, rfl, rfl, rfl, rfl, rfl⟩

end Sys2Proof.Machine
end

section
/-! The session and health requests at SI (R26 to R28) and the requests to the trigger table (R75 to R92):
O11, O21, O24 to O27. -/

namespace Sys2Proof.Machine
open Sys2Proof.Claims

/-! ## SI -/

section
variable {s : State} {p : Port} {tag : Byte} {rest : List SuSiMsg}

theorem exec_openAtSi (running : s.phase = .running) (path : s.su.toSi = .openPort p :: rest) :
    exec .openAtSi s = .next { s.takeSuSi rest with
      si := { s.si with sticky := s.si.sticky.set p (some CauseSet.empty) } } := by
  change execOpenAtSi s = _
  simp only [execOpenAtSi, State.running_of_running running, path]

theorem exec_closeAtSi (running : s.phase = .running) (path : s.su.toSi = .closePort p :: rest) :
    exec .closeAtSi s = .next { s.takeSuSi rest with
      si := { s.si with sticky := s.si.sticky.set p none, toSu := s.si.toSu ++ [p] } } := by
  change execCloseAtSi s = _
  simp only [execCloseAtSi, State.running_of_running running, path]

theorem exec_readHealth (running : s.phase = .running) (path : s.su.toSi = .request ⟨p, tag, .readHealth⟩ :: rest) :
    exec .readHealth s = .next { s.takeSuSi rest with
      si := s.si.answer ⟨p, tag, .readHealth⟩ .ok (s.si.healthPayload p) } := by
  change execReadHealth s = _
  simp only [execReadHealth, State.running_of_running running, path]

theorem exec_ackHealth (running : s.phase = .running) (path : s.su.toSi = .request ⟨p, tag, .ackHealth⟩ :: rest) :
    exec .ackHealth s = .next { s.takeSuSi rest with
      si := (s.si.acknowledge p).answer ⟨p, tag, .ackHealth⟩ .ok
        [(((s.si.acknowledge p).sticky.get p).getD CauseSet.empty).byte] } := by
  change execAckHealth s = _
  simp only [execAckHealth, State.running_of_running running, path]

end

theorem SampleIntake.acknowledge_eq {si : SampleIntake} {p : Port} {c : CauseSet} (sticky : si.sticky.get p = some c) :
    si.acknowledge p = { si with sticky := si.sticky.set p (some (c.inter si.active)) } := by
  simp only [SampleIntake.acknowledge, sticky, Option.map_some]

/-- Settles O11: each command is its message's case, and an open port's sticky set is the one recorded. -/
theorem sessionAndHealthRequestsAtIntake : Obligations.SessionAndHealthRequestsAtIntake := by
  intro s p tag rest running
  refine ⟨exec_openAtSi running, exec_closeAtSi running, fun c path sticky => ?_, fun c path sticky => ?_⟩
  · rw [exec_readHealth running path, SampleIntake.healthPayload, sticky]
    rfl
  · intro kept
    rw [exec_ackHealth running path, SampleIntake.acknowledge_eq sticky, PerPort.get_set_self]
    rfl

/-! ## BOOK -/

section
variable {t : TriggerTable} {p : Port} {tag : Byte} {bank : Bank} {a : BookArgs}

theorem TriggerTable.book_past_checks (lines : t.holdsLine p a.action = true) (quota : t.count p < bank.quota.get p) :
    (t.lowestFree = none → t.book bank p tag (.ok a) = t.answer p tag .tableFull []) ∧
      ∀ i, t.lowestFree = some i → t.book bank p tag (.ok a) = t.bookAt i p tag a := by
  have allowed : ¬ bank.quota.get p ≤ t.count p := Nat.not_le.mpr quota
  constructor
  · intro full
    simp only [TriggerTable.book, lines, Bool.not_true, Bool.false_eq_true, if_false, if_neg allowed, full]
  · intro i free
    simp only [TriggerTable.book, lines, Bool.not_true, Bool.false_eq_true, if_false, if_neg allowed, free]

theorem TriggerTable.bookAt_eq (i : EntryIndex) :
    t.bookAt i p tag a = TriggerTable.answer { t with
      entries := t.entries.set i (some (newBooking p t.serial a)), serial := t.serial + 1
      toLu := t.toLu ++ (a.action.line?.map (fun l => TtLuMsg.referenceAdded l p)).toList }
      p tag .ok (byteOf i.val :: bytes16 t.serial) := by
  simp only [TriggerTable.bookAt, tellLu_eq]
  rfl

end

/-- Settles O21: past its first three checks BOOK is decided by the lowest FREE entry. -/
theorem bookTakesTheLowestFreeEntry : Obligations.BookTakesTheLowestFreeEntry := by
  intro s p tag rest angle d a line m dist rem c hostTag request lines mode quota
  have held : s.tt.holdsLine p a = true := (TriggerTable.holdsLine_iff s.tt p a).mpr fun l named => (lines l named).2
  have room : s.tt.count p < s.bank.quota.get p := TriggerTable.heldCount_eq_count s.tt p ▸ quota
  have book : exec .book s = _ := exec_book request
  rw [bookArgs_ok angle d a line m dist rem c hostTag (fun l named => (lines l named).1) mode] at book
  obtain ⟨whenFull, whenFree⟩ := TriggerTable.book_past_checks (tag := tag) (a := ⟨angle, d, a, m, c, hostTag⟩) held room
  constructor
  · intro full
    rw [book, whenFull (TriggerTable.lowestFree_eq_none full)]
    rfl
  · intro i free below
    rw [book, whenFree i (TriggerTable.lowestFree_eq_some free below), TriggerTable.bookAt_eq]
    rfl

/-! ## AMEND -/

theorem directionOf_eq_some {d : Byte} {x : Direction} (h : directionOf d = some x) : x.byte = d := by
  unfold directionOf at h
  split at h <;> cases h <;> exact (BitVec.eq_of_toNat_eq (by simpa [Direction.byte] using ‹d.toNat = _›)).symm

theorem remainingOf_eq_some {w : Word} {z : Remaining} (h : remainingOf w = some z) : z.word = w := by
  unfold remainingOf at h
  split at h
  next unlimited => cases h; exact unlimited.symm
  split at h
  next finite =>
    cases h
    apply BitVec.eq_of_toNat_eq
    simp only [Remaining.word, BitVec.toNat_setWidth]
    omega
  next => cases h

section
variable {changes dir : Byte} {rem : Word} (angle hostTag : Word)

theorem amendArgs_bad_changes (high : 16 ≤ changes.toNat) : amendArgs changes angle dir hostTag rem = .error 3 := by
  rw [amendArgs, if_pos high]

theorem amendArgs_bad_direction (low : changes.toNat < 16) (named : changes.getLsbD 1 = true) (bad : 3 ≤ dir.toNat) :
    amendArgs changes angle dir hostTag rem = .error 5 := by
  rw [amendArgs, if_neg (Nat.not_le.mpr low), named, (directionOf_eq_none dir).mpr bad]
  rfl

theorem amendArgs_bad_remaining (low : changes.toNat < 16) (good : changes.getLsbD 1 = true → dir.toNat < 3)
    (named : changes.getLsbD 3 = true) (bad : remainingOk rem = false) :
    amendArgs changes angle dir hostTag rem = .error 7 := by
  have passed : ¬ (changes.getLsbD 1 && (directionOf dir).isNone) = true := by
    simp only [Bool.and_eq_true, Option.isNone_iff_eq_none, directionOf_eq_none]
    exact fun h => Nat.not_le.mpr (good h.1) h.2
  rw [amendArgs, if_neg (Nat.not_le.mpr low), if_neg passed, named, (remainingOf_eq_none_iff rem).mpr bad]
  rfl

end

section
variable {t : TriggerTable} {p : Port} {tag index : Byte} {serial : Word} {i : EntryIndex} {b : Booking} {a : AmendArgs}
  (found : t.identify p index serial = .ok (i, b))
include found

theorem TriggerTable.amend_spent (spent : b.state = .spent) :
    t.amend p tag index serial (.ok a) = t.answer p tag .entrySpent [] := by
  simp only [amend, found, if_pos spent]

theorem TriggerTable.amend_once (live : b.state ≠ .spent) (once : b.mode = .once) (named : a.remaining.isSome = true) :
    t.amend p tag index serial (.ok a) = t.answer p tag .badArgument [7] := by
  simp only [amend, found, if_neg live, if_pos (And.intro named once)]

theorem TriggerTable.amend_ok (live : b.state ≠ .spent) (good : b.mode = .once → a.remaining = none) :
    t.amend p tag index serial (.ok a) =
      (t.setEntry i (some (amended b a))).answer p tag .ok (index :: bytes16 serial) := by
  have fits : ¬ (a.remaining.isSome ∧ b.mode = .once) := fun h => by simp [good h.2] at h
  simp only [amend, found, if_neg live, if_neg fits]
  rfl

theorem TriggerTable.cancel_ok (owner : b.owner = p) :
    t.cancel p tag index serial = TriggerTable.answer { t with
      entries := t.entries.set i none
      toNu := t.toNu ++ (if b.action.notifies then [.drop p i b.serial] else [])
      toLu := t.toLu ++ (b.action.line?.map (fun l => TtLuMsg.referenceRemoved l p)).toList } p tag .ok [] := by
  simp only [cancel, found, tellLu_eq, tellNu_eq, setEntry, owner]

end

/-- Each field of an amended booking, by the bit that names it. -/
theorem TriggerTable.amended_fields {ch dir : Byte} {rem angle hostTag : Word} {b : Booking}
    (direction : ch.getLsbD 1 = true → directionOf dir ≠ none) (remaining : ch.getLsbD 3 = true → remainingOf rem ≠ none) :
    let b' := amended b {
      angle := if ch.getLsbD 0 then some angle else none
      direction := if ch.getLsbD 1 then directionOf dir else none
      tag := if ch.getLsbD 2 then some hostTag else none
      remaining := if ch.getLsbD 3 then remainingOf rem else none }
    b'.angle = (if ch.getLsbD 0 then angle else b.angle) ∧
      (ch.getLsbD 1 = true → b'.direction.byte = dir) ∧ (ch.getLsbD 1 = false → b'.direction = b.direction) ∧
      b'.tag = (if ch.getLsbD 2 then hostTag else b.tag) ∧
      (ch.getLsbD 3 = false → b'.mode = b.mode) ∧
      (ch.getLsbD 3 = true → ∀ x y, b.mode = .rearm x y → ∃ z, z.word = rem ∧ b'.mode = .rearm x z) ∧
      b'.state = b.state ∧ b'.owner = b.owner ∧ b'.serial = b.serial ∧ b'.action = b.action ∧
      b'.confidence = b.confidence ∧ b'.firedTotal = b.firedTotal ∧ b'.lastFire = b.lastFire := by
  refine ⟨?_, fun named => ?_, fun unnamed => ?_, ?_, fun unnamed => ?_, fun named x y mode => ?_,
    rfl, rfl, rfl, rfl, rfl, rfl, rfl⟩
  · cases h : ch.getLsbD 0 <;> rfl
  · obtain ⟨d, given⟩ := Option.ne_none_iff_exists'.mp (direction named)
    simp only [amended, named, given, if_true, Option.getD_some, directionOf_eq_some given]
  · simp only [amended, unnamed, Bool.false_eq_true, if_false, Option.getD_none]
  · cases h : ch.getLsbD 2 <;> rfl
  · cases mode : b.mode <;>
      simp only [amended, mode, unnamed, Bool.false_eq_true, if_false, Option.getD_none]
  · obtain ⟨z, given⟩ := Option.ne_none_iff_exists'.mp (remaining named)
    exact ⟨z, remainingOf_eq_some given, by simp only [amended, mode, named, given, if_true, Option.getD_some]⟩

/-- Settles O24: the arguments are judged first, in the order of their bits; a good AMEND is `amended` of the booking. -/
theorem amendReplacesTheNamedFields : Obligations.AmendReplacesTheNamedFields := by
  intro s p tag rest index serial ch angle dir hostTag rem request
  have amend : exec .amend s = _ := exec_amend request
  refine ⟨fun high => ?_, fun low named bad => ?_, fun low good named bad => ?_, ?_⟩
  · rw [amend, amendArgs_bad_changes angle hostTag high]; rfl
  · rw [amend, amendArgs_bad_direction angle hostTag low named bad]; rfl
  · rw [amend, amendArgs_bad_remaining angle hostTag low good named bad]; rfl
  intro i b hi amendable entry serials owner
  obtain ⟨low, direction, remaining⟩ := amendable
  have named1 : ch.getLsbD 1 = true → directionOf dir ≠ none := fun named bad =>
    Nat.not_le.mpr (direction named) ((directionOf_eq_none dir).mp bad)
  have named3 : ch.getLsbD 3 = true → remainingOf rem ≠ none := fun named bad =>
    Bool.false_ne_true (((remainingOf_eq_none_iff rem).mp bad).symm.trans (remaining named))
  have found := TriggerTable.identify_ok hi entry serials owner
  rw [amendArgs_ok angle hostTag low named1 named3] at amend
  refine ⟨fun spent => ?_, fun live once named => ?_, fun live once =>
    ⟨TriggerTable.amended b _, ?_, TriggerTable.amended_fields named1 named3⟩⟩
  · rw [amend, TriggerTable.amend_spent found spent]; rfl
  · have given : (remainingOf rem).isSome = true := Option.isSome_iff_ne_none.mpr (named3 named)
    rw [amend, TriggerTable.amend_once found live once (by simpa only [named, if_true] using given)]
    rfl
  · rw [amend, TriggerTable.amend_ok found live fun h => by simp only [once h]; rfl]
    rfl


/-! ## CANCEL, SUSPEND and RESUME -/

section
variable {t : TriggerTable} {p : Port} {tag index : Byte} {serial : Word} {i : EntryIndex} {b : Booking}
  (found : t.identify p index serial = .ok (i, b))
include found

theorem TriggerTable.suspend_armed (state : b.state = .armed) : t.suspend p tag index serial =
    (t.setEntry i (some { b with state := .suspended .armed })).answer p tag .ok [] := by
  simp only [suspend, found, state]

theorem TriggerTable.suspend_recovering (state : b.state = .recovering) : t.suspend p tag index serial =
    (t.setEntry i (some { b with state := .suspended .recovering })).answer p tag .ok [] := by
  simp only [suspend, found, state]

theorem TriggerTable.suspend_refused (armed : b.state ≠ .armed) (recovering : b.state ≠ .recovering) :
    t.suspend p tag index serial = t.answer p tag .wrongState [b.state.byte] := by
  cases state : b.state with
  | armed => exact absurd state armed
  | recovering => exact absurd state recovering
  | suspended r => simp only [suspend, found, state]
  | spent => simp only [suspend, found, state]

theorem TriggerTable.resume_suspended {r : ResumeState} (state : b.state = .suspended r) : t.resume p tag index serial =
    (t.setEntry i (some { b with state := resumed r })).answer p tag .ok [] := by
  simp only [resume, found, state]

theorem TriggerTable.resume_refused (active : ∀ r, b.state ≠ .suspended r) :
    t.resume p tag index serial = t.answer p tag .wrongState [b.state.byte] := by
  cases state : b.state with
  | suspended r => exact absurd state (active r)
  | armed => simp only [resume, found, state]
  | recovering => simp only [resume, found, state]
  | spent => simp only [resume, found, state]

end

/-- Settles O25: the caller's own booking is the one identified, and each request is decided by its state. -/
theorem cancelSuspendAndResume : Obligations.CancelSuspendAndResume := by
  intro s p tag rest index i b hi entry owner put
  have found : s.tt.identify p index b.serial = .ok (i, b) := TriggerTable.identify_ok hi entry rfl owner
  refine ⟨fun request => ?_, fun request => ?_, fun request => ?_⟩
  · rw [exec_cancel request, TriggerTable.cancel_ok found owner]; rfl
  · have suspend : exec .suspend s = _ := exec_suspend request
    refine ⟨fun state => ?_, fun state => ?_, fun armed recovering => ?_⟩
    · rw [suspend, TriggerTable.suspend_armed found state]; rfl
    · rw [suspend, TriggerTable.suspend_recovering found state]; rfl
    · rw [suspend, TriggerTable.suspend_refused found armed recovering]; rfl
  · have resume : exec .resume s = _ := exec_resume request
    refine ⟨fun state => ?_, fun state => ?_, fun active => ?_⟩
    · rw [resume, TriggerTable.resume_suspended found state]; rfl
    · rw [resume, TriggerTable.resume_suspended found state]; rfl
    · rw [resume, TriggerTable.resume_refused found active]; rfl

/-! ## READ_ENTRY and LIST_OWN -/

section
variable {s : State} {p : Port} {tag : Byte} {rest : List SuTtMsg}

theorem exec_readEntry {index : Byte} (request : TableRequest s p tag (.readEntry index) rest) :
    exec .readEntry s = .next { s.takeSuTt rest with tt := s.tt.readEntry p tag index } := by
  obtain ⟨running, path⟩ := request
  change execReadEntry s = _
  simp only [execReadEntry, State.running_of_running running, path]

theorem exec_listOwn (request : TableRequest s p tag .listOwn rest) :
    exec .listOwn s = .next { s.takeSuTt rest with tt := s.tt.listOwn p tag } := by
  obtain ⟨running, path⟩ := request
  change execListOwn s = _
  simp only [execListOwn, State.running_of_running running, path]

end

theorem TriggerTable.readEntry_eq {t : TriggerTable} {p : Port} {tag index : Byte} {i : EntryIndex}
    (hi : i.val = index.toNat) : t.readEntry p tag index = t.answer p tag .ok (entryRecord t.entries[i]) := by
  simp only [readEntry, indexOf_of_eq hi]

/-- The map of R86 as a number: the sum of 2 ^ i over the places i set. -/
def mapValue (owned : List Bool) : Nat :=
  (owned.zipIdx).foldl (fun m x => if x.1 then m + 2 ^ x.2 else m) 0

theorem mapValue_concat (owned : List Bool) (b : Bool) :
    mapValue (owned ++ [b]) = if b then mapValue owned + 2 ^ owned.length else mapValue owned := by
  simp [mapValue, List.zipIdx_append]

theorem mapValue_lt (owned : List Bool) : mapValue owned < 2 ^ owned.length := by
  induction owned using List.reverseRecOn with
  | nil => decide
  | append_singleton owned b below =>
    rw [mapValue_concat, List.length_append, List.length_singleton, Nat.pow_succ]
    split <;> omega

theorem mapValue_testBit (owned : List Bool) (i : Nat) : (mapValue owned).testBit i = owned.getD i false := by
  induction owned using List.reverseRecOn with
  | nil => simp [mapValue]
  | append_singleton owned b bits =>
    have below := mapValue_lt owned
    rw [mapValue_concat]
    rcases lt_trichotomy i owned.length with before | rfl | after
    · rw [List.getD_append _ _ _ _ before, ← bits]
      split
      · rw [Nat.add_comm, Nat.testBit_two_pow_add_gt before]
      · rfl
    · rw [List.getD_append_right _ _ _ _ le_rfl, Nat.sub_self]
      have clear : (mapValue owned).testBit owned.length = false := Nat.testBit_lt_two_pow below
      cases b
      · exact clear
      · simp [Nat.add_comm, Nat.testBit_two_pow_add_eq, clear]
    · have whole : mapValue (owned ++ [b]) < 2 ^ i :=
        lt_of_lt_of_le (mapValue_lt _) (Nat.pow_le_pow_right (by decide) (by simpa using after))
      rw [← mapValue_concat, Nat.testBit_lt_two_pow whole, List.getD_eq_default _ _ (by simpa using after)]

theorem ownMap_getLsbD (owned : List Bool) (full : owned.length = 64) (i : Nat) :
    (ownMap owned).getLsbD i = owned.getD i false := by
  have value : ownMap owned = BitVec.ofNat 64 (mapValue owned) := rfl
  rw [value, BitVec.getLsbD_ofNat, mapValue_testBit]
  by_cases inside : i < 64
  · simp [inside]
  · simp [inside, full]

theorem TriggerTable.heldBy_eq (p : Port) (e : Entry) : TriggerTable.heldBy p e = (e.map Booking.owner == some p) := by
  cases e <;> rfl

/-- The re-arm distance and the remaining count as READ_ENTRY answers them, 0 where the mode has none. -/
def Mode.rearmWords : Mode → Word × Word
  | .once => (0, 0)
  | .rearm d r => (d, r.word)

theorem Mode.words_eq (m : Mode) : m.words = bytes16 m.rearmWords.1 ++ bytes16 m.rearmWords.2 := by
  cases m <;> rfl

/-- Settles O26: READ_ENTRY answers the record of the entry, LIST_OWN the map of the caller's entries. -/
theorem tableReads : Obligations.TableReads := by
  intro s p tag rest
  refine ⟨fun index request => ?_, fun request => ?_⟩
  · have read : exec .readEntry s = _ := exec_readEntry request
    refine ⟨fun high => ?_, fun i hi free => ?_, fun i b hi entry => ?_⟩
    · rw [read, TriggerTable.readEntry, indexOf_eq_none high]; rfl
    · rw [read, TriggerTable.readEntry_eq hi, free]; rfl
    · rw [TriggerTable.readEntry_eq hi, entry] at read
      refine ⟨(b.action.line?.map Line.byte).getD 0xFF, b.state.resumeByte, b.mode.rearmWords.1, b.mode.rearmWords.2,
        (b.lastFire.map LastFire.angle).getD 0, (b.lastFire.map LastFire.stamp).getD 0, read.trans ?_,
        fun none => by rw [none]; rfl, fun l named => by rw [named]; rfl,
        fun once => by rw [once]; exact ⟨rfl, rfl⟩, fun x y rearm => by rw [rearm]; exact ⟨rfl, rfl⟩,
        fun state => by rw [state]; rfl, fun state => by rw [state]; rfl, fun active => ?_,
        fun never => by rw [never]; exact ⟨rfl, rfl⟩, fun f fired => by rw [fired]; exact ⟨rfl, rfl⟩⟩
      · simp only [entryRecord, Mode.words_eq, List.append_assoc]; rfl
      · cases state : b.state with
        | suspended r => exact absurd state (active r)
        | armed => rfl
        | recovering => rfl
        | spent => rfl
  · refine ⟨ownMap (s.tt.entries.toList.map (TriggerTable.heldBy p)), (exec_listOwn request).trans rfl, fun i => ?_⟩
    rw [ownMap_getLsbD _ (by simp), ← TriggerTable.heldBy_eq]
    simp


/-! ## Purge, release and line owner messages -/

section
variable {s : State}

theorem exec_purgeAtTt {p : Port} {rest : List SuTtMsg} (running : s.phase = .running)
    (path : s.su.toTt = .purge p :: rest) :
    exec .purgeAtTt s = .next { s.takeSuTt rest with tt := s.tt.purge p } := by
  change execPurgeAtTt s = _
  simp only [execPurgeAtTt, State.running_of_running running, path]

theorem exec_releaseMessage {r : Release} {rest : List Release} (running : s.phase = .running)
    (path : s.nu.toTt = r :: rest) :
    exec .releaseMessage s = .next { s with nu := { s.nu with toTt := rest }, tt := s.tt.release r } := by
  change execReleaseMessage s = _
  simp only [execReleaseMessage, State.running_of_running running, path]

theorem exec_lineOwnerMessage {l : Line} {o : Option Port} {rest : List LineOwner} (running : s.phase = .running)
    (path : s.lu.toTt = ⟨l, o⟩ :: rest) :
    exec .lineOwnerMessage s = .next { s with
      lu := { s.lu with toTt := rest }, tt := { s.tt with lineOwner := s.tt.lineOwner.set l o } } := by
  change execLineOwnerMessage s = _
  simp only [execLineOwnerMessage, State.running_of_running running, path]

end

theorem TriggerTable.purge_getElem (t : TriggerTable) (p : Port) (i : EntryIndex) :
    (t.purge p).entries[i] = if t.entries[i].map Booking.owner = some p then none else t.entries[i] := by
  have entry : (t.purge p).entries[i] = if heldBy p t.entries[i] then none else t.entries[i] := Vector.getElem_map ..
  simp only [entry, heldBy_eq, beq_iff_eq]

theorem TriggerTable.release_of_fits {t : TriggerTable} {i : EntryIndex} {b : Booking}
    (entry : t.entries[i] = some b) (spent : b.state = .spent) :
    t.release ⟨i, b.serial⟩ = { t with
      entries := t.entries.set i none
      toLu := t.toLu ++ (b.action.line?.map (fun l => TtLuMsg.referenceRemoved l b.owner)).toList } := by
  simp only [release, entry, spent, and_self, if_true, tellLu_eq, setEntry]

theorem TriggerTable.release_of_stale {t : TriggerTable} {i : EntryIndex} {serial : Word}
    (stale : ∀ b, t.entries[i] = some b → b.state = .spent → b.serial ≠ serial) : t.release ⟨i, serial⟩ = t := by
  unfold release
  split
  next b entry => exact if_neg fun fits => stale b entry fits.1 fits.2
  next => rfl

/-- Settles O27: a purge frees the port's entries and no other, a release the one SPENT entry it names. -/
theorem purgeReleaseAndLineOwner : Obligations.PurgeReleaseAndLineOwner := by
  intro s running
  refine ⟨fun p rest path => ⟨(s.tt.purge p).entries, exec_purgeAtTt running path, fun i =>
      ⟨fun own => ?_, fun other => ?_⟩⟩,
    fun i serial rest path => ⟨fun b entry spent serials => ?_, fun stale => ?_⟩,
    fun l o rest path => exec_lineOwnerMessage running path⟩
  · rw [TriggerTable.purge_getElem, if_pos own]
  · rw [TriggerTable.purge_getElem, if_neg other]
  · subst serials
    rw [exec_releaseMessage running path, TriggerTable.release_of_fits entry spent]
  · rw [exec_releaseMessage running path, TriggerTable.release_of_stale stale]

end Sys2Proof.Machine
end

section
/-! The Notice Unit's requests and reports (R113 to R131): O31, O32, O34 and O35. -/

namespace Sys2Proof.Machine
open Sys2Proof.Claims

/-! ## A fire report -/

section
variable {s : State}

theorem exec_fireReport {f : FireReport} {rest : List TtNuMsg} (running : s.phase = .running)
    (path : s.tt.toNu = .fire f :: rest) :
    exec .fireReport s = .next { s.takeTtNu rest with nu := s.nu.takeFire f } := by
  change execFireReport s = _
  simp only [execFireReport, State.running_of_running running, path]

end

theorem NoticeUnit.commit_eq_withQueue (n : NoticeUnit) (p : Port) (r : NoticePort) :
    n.commit p r = withQueue n p r :=
  n.commit_eq p r

theorem NoticePort.hasRoom_of_lt {r : NoticePort} (room : r.queue.length < 16) : r.hasRoom = true :=
  decide_eq_true room

theorem NoticePort.hasRoom_of_full {r : NoticePort} (full : 16 ≤ r.queue.length) : r.hasRoom = false :=
  decide_eq_false (Nat.not_lt.mpr full)

/-- A report merged into an owed item of its index and serial keeps the item's tag alone (R117). -/
theorem Fired.merge_eq (item report : Fired) (same : item.index = report.index) :
    (if item.serial = report.serial then
      { report with
        tag := item.tag, count := if item.count = 255 then 255 else item.count + 1, final := item.final || report.final }
      else report) = item.merge report := by
  unfold Fired.merge
  split
  next serial => rw [same, serial, satInc8_eq]
  next => rfl

/-- A report of an index no owed item has is one more item (R117). -/
theorem mem_owe_of_absent {report : Fired} {l : List Fired} (absent : ∀ x ∈ l, x.index ≠ report.index) (y : Fired) :
    y ∈ owe report l ↔ y ∈ l ∨ y = report := by
  induction l with
  | nil => simp [owe]
  | cons item rest ih =>
    have other : report.index ≠ item.index := Ne.symm (absent item List.mem_cons_self)
    rw [owe, if_neg other]
    split
    · simp only [List.mem_cons]; tauto
    · rw [List.mem_cons, ih fun x mem => absent x (List.mem_cons_of_mem _ mem), List.mem_cons]; tauto

/-- A report of an owed item's index takes that item's place (R117). -/
theorem mem_owe_of_present {report x : Fired} {l : List Fired} (ordered : l.Pairwise (fun a b => a.index < b.index))
    (mem : x ∈ l) (same : x.index = report.index) (y : Fired) :
    y ∈ owe report l ↔ (y ∈ l ∧ y ≠ x) ∨ y = x.merge report := by
  induction l with
  | nil => cases mem
  | cons item rest ih =>
    obtain ⟨above, tail⟩ := List.pairwise_cons.mp ordered
    rcases List.mem_cons.mp mem with rfl | later
    · have absent : x ∉ rest := fun h => absurd (above x h) (lt_irrefl _)
      rw [owe, if_neg (by rw [same]; exact lt_irrefl _), if_pos same.symm]
      have away : y ∈ rest → y ≠ x := fun h e => absent (e ▸ h)
      simp only [List.mem_cons]
      tauto
    · have before : item.index < report.index := same ▸ above x later
      have away : item ≠ x := fun e => absurd (above x later) (e ▸ lt_irrefl _)
      rw [owe, if_neg (not_lt.mpr before.le), if_neg before.ne', List.mem_cons, ih tail later, List.mem_cons]
      have kept : y = item → y ≠ x := fun e => e ▸ away
      tauto

section
variable {n : NoticeUnit} {f : FireReport}

theorem NoticeUnit.takeFire_of_closed (closed : (n.ports.get f.port).opened = false) :
    n.takeFire f = { n with copies := { n.copies with lastStamp := f.stamp } } := by
  simp only [takeFire, closed, Bool.not_false, if_true]

theorem NoticeUnit.takeFire_of_room (opened : (n.ports.get f.port).opened = true)
    (room : (n.ports.get f.port).queue.length < 16) :
    n.takeFire f = { withQueue { n with copies := { n.copies with lastStamp := f.stamp } } f.port
      (posted (n.ports.get f.port) (.fired f.fired)) with toTt := n.toTt ++ releaseOf f.fired } := by
  simp only [takeFire, opened, NoticePort.hasRoom_of_lt room, Bool.not_true, Bool.false_eq_true, if_true, if_false,
    commit_eq_withQueue, releaseIfFinal_eq]
  rfl

theorem NoticeUnit.takeFire_of_full (opened : (n.ports.get f.port).opened = true)
    (full : 16 ≤ (n.ports.get f.port).queue.length) :
    n.takeFire f = { n with
      copies := { n.copies with lastStamp := f.stamp }
      ports := n.ports.set f.port { n.ports.get f.port with owed := owe f.fired (n.ports.get f.port).owed } } := by
  simp only [takeFire, opened, NoticePort.hasRoom_of_full full, Bool.not_true, Bool.false_eq_true, if_false, setPort]

end

/-- Settles O31: posted with room, else owed; the owed list in index order has at most one item to merge with. -/
theorem fireReportIsPostedOwedOrMerged : Obligations.FireReportIsPostedOwedOrMerged := by
  intro s f rest running path r n new out ordered
  have fire : exec .fireReport s = _ := exec_fireReport running path
  refine ⟨fun closed => ?_, fun opened room => ?_, fun opened full => ⟨owe new r.owed, ?_, owe_ordered new ordered,
    fun absent => mem_owe_of_absent absent, fun x mem same => ?_⟩⟩
  · rw [fire, NoticeUnit.takeFire_of_closed closed]; rfl
  · rw [fire, NoticeUnit.takeFire_of_room opened room]; rfl
  · rw [fire, NoticeUnit.takeFire_of_full opened full]; rfl
  · intro merged y
    have value : merged = x.merge new := x.merge_eq new same
    rw [value]
    exact mem_owe_of_present ordered mem same y

/-! ## The other reports -/

theorem Given.idle {wanted : Prop} {x : Notice} {r : NoticePort} {h : List NuHpMsg} (unwanted : ¬ wanted) :
    Given wanted x r r h h :=
  ⟨fun _ => ⟨rfl, rfl⟩, fun _ wants => absurd wants unwanted, fun _ wants => absurd wants unwanted⟩

theorem NoticeUnit.giveTo_given (n : NoticeUnit) (p : Port) (x : Notice) {wanted : Prop} (wants : wanted) :
    Given wanted x (n.ports.get p) ((n.giveTo p x).ports.get p) (n.toHp.get p) ((n.giveTo p x).toHp.get p) := by
  obtain ⟨closed, room, full⟩ := n.giveTo_self p x
  refine ⟨fun idle => closed ?_, fun opened _ => room opened, fun opened _ => full opened⟩
  exact Bool.eq_false_iff.mpr fun opened => idle ⟨opened, wants⟩

/-- A notice given in turn to the subscribed ports of a list, as `giveSubscribed` does over all four (R119). -/
def NoticeUnit.giveEach (kind : Subscriptions → Bool) (x : Notice) (l : List Port) (n : NoticeUnit) : NoticeUnit :=
  l.foldl (fun n q => if kind (n.ports.get q).subs then n.giveTo q x else n) n

theorem NoticeUnit.giveSubscribed_eq (n : NoticeUnit) (kind : Subscriptions → Bool) (x : Notice) :
    n.giveSubscribed kind x = giveEach kind x Port.inOrder n := rfl

theorem NoticeUnit.giveEach_cons (kind : Subscriptions → Bool) (x : Notice) (q : Port) (l : List Port)
    (n : NoticeUnit) :
    giveEach kind x (q :: l) n = giveEach kind x l (if kind (n.ports.get q).subs then n.giveTo q x else n) := rfl

theorem NoticeUnit.giveEach_given (kind : Subscriptions → Bool) (x : Notice) (p : Port) {l : List Port} (once : l.Nodup)
    (n : NoticeUnit) :
    Given (p ∈ l ∧ kind (n.ports.get p).subs = true) x (n.ports.get p) ((giveEach kind x l n).ports.get p)
      (n.toHp.get p) ((giveEach kind x l n).toHp.get p) := by
  induction l generalizing n with
  | nil => exact Given.idle fun wants => List.not_mem_nil wants.1
  | cons q l ih =>
    obtain ⟨fresh, once⟩ := List.nodup_cons.mp once
    have given := ih once (if kind (n.ports.get q).subs then n.giveTo q x else n)
    rw [giveEach_cons]
    by_cases own : p = q
    · subst own
      obtain ⟨idle, -, -⟩ := given
      obtain ⟨port, path⟩ := idle fun wants => fresh wants.2.1
      rw [port, path]
      by_cases wants : kind (n.ports.get p).subs = true
      · rw [if_pos wants]
        exact n.giveTo_given p x ⟨List.mem_cons_self, wants⟩
      · rw [if_neg wants]
        exact Given.idle fun h => wants h.2
    · have kept : (if kind (n.ports.get q).subs then n.giveTo q x else n).ports.get p = n.ports.get p ∧
          (if kind (n.ports.get q).subs then n.giveTo q x else n).toHp.get p = n.toHp.get p := by
        split
        · exact (n.giveTo_frame q x).2.2.2 p own
        · exact ⟨rfl, rfl⟩
      rw [kept.1, kept.2] at given
      simpa only [List.mem_cons, own, false_or] using given

theorem NoticeUnit.giveSubscribed_given (n : NoticeUnit) (kind : Subscriptions → Bool) (x : Notice) (p : Port) :
    Given (kind (n.ports.get p).subs = true) x (n.ports.get p) ((n.giveSubscribed kind x).ports.get p) (n.toHp.get p)
      ((n.giveSubscribed kind x).toHp.get p) := by
  have every : p ∈ Port.inOrder := by cases p <;> decide
  have given := giveEach_given kind x p (l := Port.inOrder) (by decide) n
  rw [giveSubscribed_eq]
  simpa only [every, true_and] using given

theorem NoticeUnit.giveSubscribed_reported (n : NoticeUnit) (kind : Subscriptions → Bool) (x : Notice) :
    Reported n (n.giveSubscribed kind x) n.copies (fun _ r => kind r.subs = true) x := by
  obtain ⟨copies, toTt, toSu, -⟩ := n.giveSubscribed_frame kind x
  exact ⟨copies, toTt, toSu, n.giveSubscribed_given kind x⟩

theorem NoticeUnit.takeLease_reported (n : NoticeUnit) (holder : Option Port) (grant : Bool) :
    Reported n (n.takeLease holder grant) { n.copies with holder := holder }
      (fun p _ => grant = true ∧ holder = some p) .leaseGranted := by
  match holder, grant with
  | some q, true =>
    obtain ⟨copies, toTt, toSu, others⟩ :=
      NoticeUnit.giveTo_frame { n with copies := { n.copies with holder := some q } } q .leaseGranted
    refine ⟨copies, toTt, toSu, fun p => ?_⟩
    by_cases own : p = q
    · subst own
      exact NoticeUnit.giveTo_given { n with copies := { n.copies with holder := some p } } p .leaseGranted ⟨rfl, rfl⟩
    · obtain ⟨port, path⟩ := others p own
      exact port ▸ path ▸ Given.idle fun wants => own (Option.some.inj wants.2).symm
  | some q, false => exact ⟨rfl, rfl, rfl, fun p => Given.idle fun wants => Bool.false_ne_true wants.1⟩
  | none, grant => exact ⟨rfl, rfl, rfl, fun p => Given.idle fun wants => nomatch wants.2⟩

section
variable {s : State}

theorem exec_healthReport {r : HealthReport} {rest : List HealthReport} (running : s.phase = .running)
    (path : s.si.toNu = r :: rest) :
    exec .healthReport s = .next { s with si := { s.si with toNu := rest }, nu := s.nu.takeHealth r } := by
  change execHealthReport s = _
  simp only [execHealthReport, State.running_of_running running, path]

theorem exec_loopReport {old new : LoopState} {cause : LoopCause} {stamp : Word} {step : GainStep}
    {rest : List TlNuMsg} (running : s.phase = .running) (path : s.tl.toNu = .loop old new cause stamp step :: rest) :
    exec .loopReport s = .next { s.takeTlNu rest with nu := s.nu.takeLoop old new cause stamp step } := by
  change execLoopReport s = _
  simp only [execLoopReport, State.running_of_running running, path]

theorem exec_overspeedReport {v : Int} {stamp : Word} {rest : List TlNuMsg} (running : s.phase = .running)
    (path : s.tl.toNu = .overspeed v stamp :: rest) :
    exec .overspeedReport s = .next { s.takeTlNu rest with nu := s.nu.takeOverspeed v stamp } := by
  change execOverspeedReport s = _
  simp only [execOverspeedReport, State.running_of_running running, path]

theorem exec_activationReport {bank : BankId} {rest : List CuNuMsg} (running : s.phase = .running)
    (path : s.cu.toNu = .activation bank :: rest) :
    exec .activationReport s = .next { s.takeCuNu rest with nu := s.nu.takeActivation bank } := by
  change execActivationReport s = _
  simp only [execActivationReport, State.running_of_running running, path]

theorem exec_leaseReport {holder : Option Port} {grant : Bool} {rest : List CuNuMsg} (running : s.phase = .running)
    (path : s.cu.toNu = .lease holder grant :: rest) :
    exec .leaseReport s = .next { s.takeCuNu rest with nu := s.nu.takeLease holder grant } := by
  change execLeaseReport s = _
  simp only [execLeaseReport, State.running_of_running running, path]

end

/-- Settles O32: each report sets its copies, and `giveSubscribed` serves every subscribed port once. -/
theorem reportsBecomeNotices : Obligations.ReportsBecomeNotices := by
  intro s running c
  refine ⟨fun a ch st rest path => ⟨_, exec_healthReport running path, ?_⟩,
    fun old new cause st e rest path => ⟨_, exec_loopReport running path, ?_⟩,
    fun v st rest path => ⟨_, exec_overspeedReport running path, ?_⟩,
    fun bank rest path => ⟨_, exec_activationReport running path, ?_⟩,
    fun holder grant rest path => ⟨_, exec_leaseReport running path, s.nu.takeLease_reported holder grant⟩⟩
  · exact NoticeUnit.giveSubscribed_reported { s.nu with copies := { c with active := a, lastStamp := st } } _ _
  · exact NoticeUnit.giveSubscribed_reported
      { s.nu with copies := { c with loopState := new, step := e, lastStamp := st } } _ _
  · exact NoticeUnit.giveSubscribed_reported { s.nu with copies := { c with lastStamp := st } } _ _
  · exact NoticeUnit.giveSubscribed_reported { s.nu with copies := { c with bank := bank } } _ _

/-! ## Notice records -/

theorem big_two (w : Word) : big 2 w.toNat = bytes16 w := by
  have high : BitVec.ofNat 8 (w.toNat / 256) = w.extractLsb' 8 8 := by
    apply BitVec.eq_of_toNat_eq; simp [Nat.shiftRight_eq_div_pow]
  have low : BitVec.ofNat 8 (w.toNat / 1) = w.extractLsb' 0 8 := by
    apply BitVec.eq_of_toNat_eq; simp
  exact congrArg₂ (fun a b => [a, b]) high low

/-- A velocity on three bytes, two's complement (R196). -/
theorem big_velocity (v : Int) : big 3 (v % 16777216).toNat = bytesVelocity v := by
  have word : (BitVec.ofInt 24 v).toNat = (v % 16777216).toNat := BitVec.toNat_ofInt ..
  have byte : ∀ k, BitVec.ofNat 8 ((v % 16777216).toNat / 2 ^ k) = (BitVec.ofInt 24 v).extractLsb' k 8 := fun k => by
    apply BitVec.eq_of_toNat_eq
    rw [BitVec.toNat_ofNat, BitVec.extractLsb'_toNat, word, Nat.shiftRight_eq_div_pow]
  simp only [bytesVelocity, ← byte]
  rfl

@[simp] theorem loopNumber_eq (l : LoopState) : loopNumber l = l.byte := by cases l <;> rfl

@[simp] theorem loopCauseNumber_eq (c : LoopCause) : loopCauseNumber c = c.byte := by cases c <;> rfl

@[simp] theorem bankNumber_eq (b : BankId) : bankNumber b = b.byte := by cases b <;> rfl

@[simp] theorem flagNumber_eq (b : Bool) : flagNumber b = flagByte b := rfl

@[simp] theorem causeSetNumber_eq (c : CauseSet) : causeSetNumber c = c.byte := by
  obtain ⟨a, b, c, d⟩ := c
  revert a b c d
  decide

theorem Passage.byte_eq (p : Passage) : (if p = .fwd then 0 else 1 : Byte) = p.byte := by cases p <;> rfl

theorem StepState.byte_eq (p : StepState) : (if p = .track then 2 else 3 : Byte) = p.byte := by cases p <;> rfl

/-- The record of a queued notice is the record of its kind in section 11.5. -/
theorem QueuedNotice.record_eq (q : QueuedNotice) : q.record = recordOf q.seq q.notice := by
  obtain ⟨seq, notice⟩ := q
  cases notice <;>
    simp only [QueuedNotice.record, recordOf, big_two, big_velocity, loopNumber_eq, loopCauseNumber_eq, bankNumber_eq,
      flagNumber_eq, causeSetNumber_eq, Passage.byte_eq, StepState.byte_eq, byteOf, stepByte]

/-! ## NOTICE_POP -/

section
variable {s : State} {p : Port}

theorem exec_noticePop {tag : Byte} {rest : List SuNuMsg} (running : s.phase = .running)
    (path : s.su.toNu = .request ⟨p, tag, .noticePop⟩ :: rest) :
    exec .noticePop s = .next { s.takeSuNu rest with nu := s.nu.pop p tag } := by
  change execNoticePop s = _
  simp only [execNoticePop, State.running_of_running running, path]

theorem exec_openAtNu {subs : Subscriptions} {rest : List SuNuMsg} (running : s.phase = .running)
    (path : s.su.toNu = .openPort p subs :: rest) :
    exec .openAtNu s = .next { s.takeSuNu rest with nu := s.nu.openPort p subs } := by
  change execOpenAtNu s = _
  simp only [execOpenAtNu, State.running_of_running running, path]

theorem exec_closeAtNu {rest : List SuNuMsg} (running : s.phase = .running)
    (path : s.su.toNu = .closePort p :: rest) :
    exec .closeAtNu s = .next { s.takeSuNu rest with nu := s.nu.closePort p } := by
  change execCloseAtNu s = _
  simp only [execCloseAtNu, State.running_of_running running, path]

theorem exec_purgeMark {rest : List TtNuMsg} (running : s.phase = .running)
    (path : s.tt.toNu = .purgeMark p :: rest) :
    exec .purgeMark s = .next { s.takeTtNu rest with nu := s.nu.takePurgeMark p } := by
  change execPurgeMark s = _
  simp only [execPurgeMark, State.running_of_running running, path]

end

section
variable {n : NoticeUnit} {p : Port} (tag : Byte) {head : QueuedNotice} {more : List QueuedNotice}

theorem NoticeUnit.summaryFor_eq : n.summaryFor p = .summary n.copies.loopState n.copies.step n.copies.active
    (decide (n.copies.holder = some p)) n.copies.bank n.copies.lastStamp := by
  rw [summaryFor, beq_eq_decide]

theorem NoticeUnit.pop_empty (empty : (n.ports.get p).queue = []) :
    n.pop p tag = n.answer p tag .queueEmpty [] := by
  simp only [pop, empty]

variable (queue : (n.ports.get p).queue = head :: more)
include queue

theorem NoticeUnit.pop_summary (summary : (n.ports.get p).summaryOwed = true) :
    n.pop p tag = (withQueue n p { posted { n.ports.get p with queue := more } (n.summaryFor p) with
      summaryOwed := false }).answer p tag .ok (recordOf head.seq head.notice) := by
  simp only [pop, queue, summary, if_true, commit_eq_withQueue, QueuedNotice.record_eq]
  rfl

theorem NoticeUnit.pop_owed {f : Fired} {owed : List Fired} (none : (n.ports.get p).summaryOwed = false)
    (first : (n.ports.get p).owed = f :: owed) :
    n.pop p tag = NoticeUnit.answer
      { withQueue n p { posted { n.ports.get p with queue := more } (.fired f) with owed := owed } with
        toTt := n.toTt ++ releaseOf f } p tag .ok (recordOf head.seq head.notice) := by
  simp only [pop, queue, none, first, Bool.false_eq_true, if_false, commit_eq_withQueue, releaseIfFinal_eq,
    QueuedNotice.record_eq]
  rfl

theorem NoticeUnit.pop_nothing_owed (none : (n.ports.get p).summaryOwed = false) (empty : (n.ports.get p).owed = []) :
    n.pop p tag = (withQueue n p { n.ports.get p with queue := more }).answer p tag .ok
      (recordOf head.seq head.notice) := by
  simp only [pop, queue, none, empty, Bool.false_eq_true, if_false, commit_eq_withQueue, QueuedNotice.record_eq]

end

/-- Settles O34: the queue's head decides whether there is an answer, and what is owed decides what is posted. -/
theorem noticePopPostsWhatIsOwed : Obligations.NoticePopPostsWhatIsOwed := by
  intro s p tag rest running path r c answered
  have pop : exec .noticePop s = _ := exec_noticePop running path
  refine ⟨fun empty => ?_, fun head more queue => ⟨fun summary => ?_, fun f owed none first => ?_, fun none empty => ?_⟩⟩
  · rw [pop, NoticeUnit.pop_empty tag empty]; rfl
  · rw [pop, NoticeUnit.pop_summary tag queue summary, NoticeUnit.summaryFor_eq]; rfl
  · rw [pop, NoticeUnit.pop_owed tag queue none first]; rfl
  · rw [pop, NoticeUnit.pop_nothing_owed tag queue none empty]; rfl

/-! ## Open p, close p and the purge mark -/

section
variable {n : NoticeUnit} {p : Port}

/-- The record of a port as its closing leaves it, but for the purge mark (R129). -/
def NoticePort.closed (r : NoticePort) : NoticePort :=
  { r with opened := false, subs := ⟨false, false, false, false⟩, queue := [], owed := [], summaryOwed := false }

theorem NoticeUnit.closePort_of_mark (taken : (n.ports.get p).markTaken = true) :
    n.closePort p = { withQueue n p { (n.ports.get p).closed with markTaken := false } with
      toSu := n.toSu ++ [p] } := by
  simp only [closePort, NoticePort.emptied, taken, if_true, commit_eq_withQueue]
  rfl

theorem NoticeUnit.closePort_of_no_mark (pending : (n.ports.get p).markTaken = false) :
    n.closePort p = withQueue n p { (n.ports.get p).closed with markAwaited := true } := by
  simp only [closePort, NoticePort.emptied, pending, Bool.false_eq_true, if_false, commit_eq_withQueue]
  simp only [NoticePort.closed, pending]
  rfl

theorem NoticeUnit.takePurgeMark_of_opened (opened : (n.ports.get p).opened = true) :
    n.takePurgeMark p = { n with ports := n.ports.set p { n.ports.get p with markTaken := true } } := by
  simp only [takePurgeMark, opened, if_true, setPort]

theorem NoticeUnit.takePurgeMark_of_awaited (shut : (n.ports.get p).opened = false)
    (awaited : (n.ports.get p).markAwaited = true) :
    n.takePurgeMark p = { n with
      ports := n.ports.set p { n.ports.get p with markAwaited := false }, toSu := n.toSu ++ [p] } := by
  simp only [takePurgeMark, shut, awaited, Bool.false_eq_true, if_true, if_false, setPort, done]

end

/-- Settles O35: open and close put a whole record; the second of close and purge mark reports done. -/
theorem portOpenedClosedAndMarked : Obligations.PortOpenedClosedAndMarked := by
  intro s p running r closed fromSu fromTt
  refine ⟨fun subs rest path => ?_, fun rest path => ⟨fun taken => ?_, fun pending => ?_⟩,
    fun rest path => ⟨fun opened => ?_, fun shut awaited => ?_⟩⟩
  · rw [exec_openAtNu running path, NoticeUnit.openPort, NoticeUnit.commit_eq_withQueue]; rfl
  · rw [exec_closeAtNu running path, NoticeUnit.closePort_of_mark taken]; rfl
  · rw [exec_closeAtNu running path, NoticeUnit.closePort_of_no_mark pending]; rfl
  · rw [exec_purgeMark running path, NoticeUnit.takePurgeMark_of_opened opened]; rfl
  · rw [exec_purgeMark running path, NoticeUnit.takePurgeMark_of_awaited shut awaited]; rfl

end Sys2Proof.Machine
end

section
/-! The Line Unit: claims, pulses, releases, status, references and the teardown exchange (R134 to R144): O36 to O39. -/

namespace Sys2Proof.Machine
open Sys2Proof.Claims

/-! ## The commands -/

/-- An expiry at a tick no other timer's tick comes before takes place there (R198). -/
theorem State.expireAt_of_comes {s : State} {t : Nat} {f : State → State} (comes : Comes s t) :
    s.expireAt t f = f (s.advanceTo t) := by
  have offered : s.mayReach t = true := (s.mayReach_iff t).mpr (comes.imp_right (noTimerBefore_iff s t).mp)
  rw [State.expireAt, if_pos offered]

section
variable {s : State} {p : Port} {tag : Byte} {line : Byte} {rest : List SuLuMsg}

theorem exec_lineClaim {pol width : Byte} (request : LineRequest s p tag (.lineClaim line pol width) rest) :
    exec .lineClaim s = .next { s.takeSuLu rest with lu := s.lu.takeClaim p tag line pol width } := by
  obtain ⟨running, path⟩ := request
  change execLineClaim s = _
  simp only [execLineClaim, State.running_of_running running, path]

theorem exec_lineRelease (request : LineRequest s p tag (.lineRelease line) rest) :
    exec .lineRelease s = .next { s.takeSuLu rest with lu := s.lu.takeRelease p tag line } := by
  obtain ⟨running, path⟩ := request
  change execLineRelease s = _
  simp only [execLineRelease, State.running_of_running running, path]

theorem exec_linePulse (request : LineRequest s p tag (.linePulse line) rest) :
    exec .linePulse s = .next { s.takeSuLu rest with lu := s.lu.takePulse s.now p tag line } := by
  obtain ⟨running, path⟩ := request
  change execLinePulse s = _
  simp only [execLinePulse, State.running_of_running running, path]

theorem exec_lineStatus (request : LineRequest s p tag (.lineStatus line) rest) :
    exec .lineStatus s = .next { s.takeSuLu rest with lu := s.lu.takeStatus p tag line } := by
  obtain ⟨running, path⟩ := request
  change execLineStatus s = _
  simp only [execLineStatus, State.running_of_running running, path]

theorem exec_releaseAll (running : s.phase = .running) (path : s.su.toLu = .releaseAll p :: rest) :
    exec .releaseAll s = .next { s.takeSuLu rest with lu := s.lu.takeReleaseAll p } := by
  change execReleaseAll s = _
  simp only [execReleaseAll, State.running_of_running running, path]

end

section
variable {s : State} {l : Line} {p : Port} {rest : List TtLuMsg} (running : s.phase = .running)
include running

theorem exec_pulseRequest (path : s.tt.toLu = .pulse l p :: rest) :
    exec .pulseRequest s = .next { s.takeTtLu rest with lu := s.lu.takePulseRequest s.now l p } := by
  change execPulseRequest s = _
  simp only [execPulseRequest, State.running_of_running running, path]

theorem exec_referenceAdded (path : s.tt.toLu = .referenceAdded l p :: rest) :
    exec .referenceAdded s = .next { s.takeTtLu rest with lu := s.lu.addReference l p } := by
  change execReferenceAdded s = _
  simp only [execReferenceAdded, State.running_of_running running, path]

theorem exec_referenceRemoved (path : s.tt.toLu = .referenceRemoved l p :: rest) :
    exec .referenceRemoved s = .next { s.takeTtLu rest with lu := s.lu.removeReference l p } := by
  change execReferenceRemoved s = _
  simp only [execReferenceRemoved, State.running_of_running running, path]

theorem exec_referencesPurged (path : s.tt.toLu = .referencesPurged p :: rest) :
    exec .referencesPurged s = .next { s.takeTtLu rest with lu := s.lu.takeReferencesPurged p } := by
  change execReferencesPurged s = _
  simp only [execReferencesPurged, State.running_of_running running, path]

/-- A pulse's end where no other timer's tick comes before it (R141, R198). -/
theorem exec_pulseEnd {e : Nat} (pulsing : (s.lu.lines.get l).state = .pulsing p e) (comes : Comes s (e + 1)) :
    exec (.pulseEnd l) s = .next { s with now := max s.now (e + 1), lu := s.lu.endPulse l p } := by
  change execPulseEnd l s = _
  simp only [execPulseEnd, State.running_of_running running, pulsing]
  rw [State.expireAt_of_comes comes]
  rfl

end

/-! ## Owners -/

theorem owns_iff (p : Port) (r : LineRecord) : Owns p r ↔ r.state.owner = some p :=
  (LineState.owner_eq_some r.state p).symm

theorem driveOf_idle (p : Port) (pol : Polarity) : driveOf (.idle p) pol = inactive pol := by cases pol <;> rfl

theorem driveOf_pulsing (p : Port) (e : Nat) (pol : Polarity) : driveOf (.pulsing p e) pol = active pol := by
  cases pol <;> rfl

theorem LineRecord.strike_eq {now : Nat} {p : Port} {r : LineRecord} (owns : Owns p r) :
    r.strike now = struck now p r := by
  rcases owns with idle | ⟨e, pulsing⟩
  · simp only [strike, struck, idle, enter, driveOf_pulsing, if_true]
  · simp only [strike, struck, pulsing, enter, driveOf_pulsing, reduceCtorEq, if_false]

theorem LineRecord.release_eq (r : LineRecord) : r.release = released r := by
  obtain ⟨state, polarity⟩ := r
  rfl

/-! ## LINE_CLAIM -/

theorem polarityOf_of_lt {b : Byte} (low : b.toNat < 2) : ∃ pol, polarityOf b = some pol :=
  Option.ne_none_iff_exists'.mp fun none => Nat.not_le.mpr low ((polarityOf_eq_none b).mp none)

theorem lineOf_of_lt {b : Byte} (low : b.toNat < 4) : ∃ l, lineOf b = some l :=
  Option.ne_none_iff_exists'.mp fun none => Nat.not_le.mpr low ((lineOf_eq_none b).mp none)

section
variable {u : LineUnit} {p : Port} {tag : Byte} {l : Line} {pol : Polarity} {width : BitVec 8}

theorem LineUnit.takeClaim_of_args (given : width ≠ 0) :
    u.takeClaim p tag l.byte pol.byte width = u.claim p tag l pol width := by
  simp only [takeClaim, lineOf_byte, claimArgs, polarityOf_byte, if_neg given]

theorem LineUnit.claim_unowned (state : (u.lines.get l).state = .unowned) :
    u.claim p tag l pol width = LineUnit.answer { u with
      lines := u.lines.set l { u.lines.get l with
        state := .idle p, polarity := pol, width := width, merged := 0, pin := inactive pol }
      toTt := u.toTt ++ [⟨l, some p⟩] } p tag .ok [1] := by
  simp only [claim, state, LineRecord.enter, driveOf_idle, setLine, tellOwner]
  rfl

theorem LineUnit.claim_idle (state : (u.lines.get l).state = .idle p) :
    u.claim p tag l pol width = LineUnit.answer { u with
      lines := u.lines.set l { u.lines.get l with polarity := pol, width := width, pin := inactive pol } }
      p tag .ok [1] := by
  simp only [claim, state, if_true, LineRecord.enter, driveOf_idle, setLine]
  rfl

theorem LineUnit.claim_pulsing {e : Nat} (state : (u.lines.get l).state = .pulsing p e)
    (same : pol = (u.lines.get l).polarity) :
    u.claim p tag l pol width = LineUnit.answer { u with
      lines := u.lines.set l { u.lines.get l with width := width } } p tag .ok [2] := by
  simp only [claim, state, if_true, if_pos same, setLine]
  rfl

theorem LineUnit.claim_other_polarity {e : Nat} (state : (u.lines.get l).state = .pulsing p e)
    (other : pol ≠ (u.lines.get l).polarity) :
    u.claim p tag l pol width = u.answer p tag .wrongState [] := by
  simp only [claim, state, if_true, if_neg other]

theorem LineUnit.claim_held {q : Port} (other : q ≠ p) (owns : Owns q (u.lines.get l)) :
    u.claim p tag l pol width = u.answer p tag .lineHeld [q.byte] := by
  rcases owns with state | ⟨e, state⟩ <;> simp only [claim, state, if_neg other]

end

/-- Settles O36: the arguments are judged in order, then the state and the owner of the line decide. -/
theorem claimOfALine : Obligations.ClaimOfALine := by
  intro s p tag rest line polByte width request out
  have claim : exec .lineClaim s = _ := exec_lineClaim request
  refine ⟨fun high => ?_, fun low high => ?_, fun low polarity zero => ?_, ?_⟩
  · rw [claim, LineUnit.takeClaim, (lineOf_eq_none line).mpr high]; rfl
  · obtain ⟨l, named⟩ := lineOf_of_lt low
    rw [claim, LineUnit.takeClaim, named, claimArgs, (polarityOf_eq_none polByte).mpr high]; rfl
  · obtain ⟨l, named⟩ := lineOf_of_lt low
    obtain ⟨pol, given⟩ := polarityOf_of_lt polarity
    rw [claim, LineUnit.takeClaim, named, claimArgs, given, zero]; rfl
  · rintro l pol rfl rfl given r put
    rw [LineUnit.takeClaim_of_args given] at claim
    refine ⟨fun state => ?_, fun state => ?_, fun e state same => ?_, fun e state other => ?_, fun q other owns => ?_⟩
    · rw [claim, LineUnit.claim_unowned state]; rfl
    · rw [claim, LineUnit.claim_idle state]; rfl
    · rw [claim, LineUnit.claim_pulsing state same]; rfl
    · rw [claim, LineUnit.claim_other_polarity state other]; rfl
    · rw [claim, LineUnit.claim_held other owns]; rfl

/-! ## Pulses -/

section
variable {u : LineUnit} {now : Nat} {p : Port} {tag : Byte} {l : Line}

theorem LineUnit.takePulseRequest_of_owner (owns : Owns p (u.lines.get l)) :
    u.takePulseRequest now l p = { u with lines := u.lines.set l (struck now p (u.lines.get l)) } := by
  simp only [takePulseRequest, if_pos ((owns_iff _ _).mp owns), LineRecord.strike_eq owns, setLine]

theorem LineUnit.takePulseRequest_of_other (other : ¬ Owns p (u.lines.get l)) : u.takePulseRequest now l p = u :=
  if_neg (mt (owns_iff _ _).mpr other)

theorem LineUnit.takePulse_of_owner (owns : Owns p (u.lines.get l)) :
    u.takePulse now p tag l.byte = LineUnit.answer
      { u with lines := u.lines.set l (struck now p (u.lines.get l)) } p tag .ok [2] := by
  simp only [takePulse, lineOf_byte, (owns_iff _ _).mp owns, ne_eq, not_true, if_false, LineRecord.strike_eq owns,
    setLine]
  rfl

theorem LineUnit.takePulse_of_other (other : ¬ Owns p (u.lines.get l)) :
    u.takePulse now p tag l.byte = u.answer p tag .lineNotHeld [] := by
  simp only [takePulse, lineOf_byte, if_pos (mt (owns_iff _ _).mpr other)]

end

/-- Settles O37: the owner's strike is `struck`, any other port's is discarded or refused, and a pulse ends IDLE. -/
theorem pulsesStartExtendAndEnd : Obligations.PulsesStartExtendAndEnd := by
  intro s l p running r put
  refine ⟨fun rest path => ?_, fun tag rest request => ?_, fun e pulsing comes => ?_⟩
  · intro out
    have pulse : exec .pulseRequest s = _ := exec_pulseRequest running path
    refine ⟨fun owns => ?_, fun other => ?_⟩
    · rw [pulse, LineUnit.takePulseRequest_of_owner owns]; rfl
    · rw [pulse, LineUnit.takePulseRequest_of_other other]; rfl
  · have pulse : exec .linePulse s = _ := exec_linePulse request
    refine ⟨fun owns => ?_, fun other => ?_⟩
    · rw [pulse, LineUnit.takePulse_of_owner owns]; rfl
    · rw [pulse, LineUnit.takePulse_of_other other]; rfl
  · rw [exec_pulseEnd running pulsing comes, LineUnit.endPulse, LineRecord.enter, driveOf_idle]; rfl

/-! ## LINE_RELEASE and LINE_STATUS -/

section
variable {u : LineUnit} {p : Port} {tag : Byte} {l : Line}

theorem LineUnit.takeRelease_of_other (other : ¬ Owns p (u.lines.get l)) :
    u.takeRelease p tag l.byte = u.answer p tag .lineNotHeld [] := by
  simp only [takeRelease, lineOf_byte, if_pos (mt (owns_iff _ _).mpr other)]

theorem LineUnit.takeRelease_in_use (owns : Owns p (u.lines.get l)) (used : 0 < (u.lines.get l).refs.get p) :
    u.takeRelease p tag l.byte = u.answer p tag .lineInUse [byteOf ((u.lines.get l).refs.get p)] := by
  simp only [takeRelease, lineOf_byte, (owns_iff _ _).mp owns, ne_eq, not_true, if_false, if_pos used]

theorem LineUnit.takeRelease_free (owns : Owns p (u.lines.get l)) (unused : (u.lines.get l).refs.get p = 0) :
    u.takeRelease p tag l.byte = LineUnit.answer { u with
      lines := u.lines.set l (released (u.lines.get l)), toTt := u.toTt ++ [⟨l, none⟩] } p tag .ok [] := by
  simp only [takeRelease, lineOf_byte, (owns_iff _ _).mp owns, ne_eq, not_true, if_false, unused, lt_irrefl,
    LineRecord.release_eq, setLine, tellOwner]

end

/-- The line check of R134, one for the four requests that name a line. -/
theorem exec_of_bad_line {s : State} {p : Port} {tag : Byte} {rest : List SuLuMsg} {c : Instr}
    {body : ReqBody} {line : Byte} (names : NamesLine c body line) (request : LineRequest s p tag body rest) (high : 4 ≤ line.toNat) :
    exec c s = .next (lineAnswers s rest s.lu p tag .badArgument [1]) := by
  have none := (lineOf_eq_none line).mpr high
  rcases names with ⟨pol, width, rfl, rfl⟩ | ⟨rfl, rfl⟩ | ⟨rfl, rfl⟩ | ⟨rfl, rfl⟩
  · rw [exec_lineClaim request, LineUnit.takeClaim, none]; rfl
  · rw [exec_lineRelease request, LineUnit.takeRelease, none]; rfl
  · rw [exec_linePulse request, LineUnit.takePulse, none]; rfl
  · rw [exec_lineStatus request, LineUnit.takeStatus, none]; rfl

/-- Settles O38: the line check, then owner and references for a release; LINE_STATUS answers the record. -/
theorem releaseAndStatusOfALine : Obligations.ReleaseAndStatusOfALine := by
  intro s p tag rest
  refine ⟨fun c body line names request high => exec_of_bad_line names request high,
    fun l => ⟨fun request => ?_, fun request => ?_⟩⟩
  · have release : exec .lineRelease s = _ := exec_lineRelease request
    refine ⟨fun other => ?_, fun owns used => ?_, fun owns unused => ?_⟩
    · rw [release, LineUnit.takeRelease_of_other other]; rfl
    · rw [release, LineUnit.takeRelease_in_use owns used]; rfl
    · rw [release, LineUnit.takeRelease_free owns unused]; rfl
  · refine ⟨portByte (s.lu.lines.get l).state.owner, (s.lu.lines.get l).polarity.byte,
      (s.lu.lines.get l).state.byte, ?_, fun state => ?_, fun q state => ?_, fun q e state => ?_,
      fun polarity => ?_, fun polarity => ?_⟩
    · rw [exec_lineStatus request, LineUnit.takeStatus, lineOf_byte]; rfl
    · rw [state]; exact ⟨rfl, rfl⟩
    · rw [state]; exact ⟨rfl, rfl⟩
    · rw [state]; exact ⟨rfl, rfl⟩
    · rw [polarity]; rfl
    · rw [polarity]; rfl

/-! ## References and the teardown exchange -/

/-- Settles O39: references move one count, and the exchange ends with whichever of the two messages comes second. -/
theorem referencesAndTheTeardownExchange : Obligations.ReferencesAndTheTeardownExchange := by
  intro s p running fromTt
  refine ⟨fun l rest => ⟨fun path => exec_referenceAdded running path, fun path => exec_referenceRemoved running path⟩,
    fun rest path => ?_, fun rest path => ?_⟩
  · obtain ⟨lines, each, purged⟩ := s.lu.takeReferencesPurged_eq p
    have purge : exec .referencesPurged s = _ := exec_referencesPurged running path
    rw [purged] at purge
    refine ⟨lines, each, fun mark => ?_, fun mark => ?_⟩
    · simp only [mark, if_true] at purge; exact purge
    · simp only [mark, reduceCtorEq, if_false, List.append_nil] at purge; exact purge
  · obtain ⟨lines, each, allReleased⟩ := s.lu.takeReleaseAll_eq p
    have release : exec .releaseAll s = _ := exec_releaseAll running path
    rw [allReleased] at release
    refine ⟨lines, fun l => ⟨fun owns => ?_, fun other => ?_⟩, fun mark => ?_, fun mark => ?_⟩
    · rw [each, if_pos ((owns_iff _ _).mp owns), LineRecord.release_eq]
    · rw [each, if_neg (mt (owns_iff _ _).mpr other)]
    · simp only [mark, if_true] at release; exact release
    · simp only [mark, reduceCtorEq, if_false, List.append_nil] at release; exact release

end Sys2Proof.Machine
end

section
/-! The Session Unit: the gate, forwarding, joining and leaving, the status requests and the end of a teardown
(R146 to R157): O40 to O44. -/

namespace Sys2Proof.Machine
open Sys2Proof.Claims

/-! ## The commands -/

section
variable {s : State} {p : Port} {tag : Byte} {rest : List Request}

/-- FORWARD_REQUEST takes what the gate refuses and what another block owns (R147, R148). -/
theorem exec_forwardRequest {body : ReqBody} (request : PortRequest s p tag body rest)
    (forwards : body.owner = .su → (s.su.sessions.get p).gate body ≠ none) :
    exec (.forwardRequest p) s =
      .next (suTook s p rest (s.su.judge s.now ⟨p, tag, body⟩ (·.forward ⟨p, tag, body⟩))) := by
  obtain ⟨running, path⟩ := request
  have taken : ¬ (body.owner = .su ∧ ((s.su.sessions.get p).gate body).isNone) := fun ⟨own, admitted⟩ =>
    forwards own (Option.isNone_iff_eq_none.mp admitted)
  change execForwardRequest p s = _
  simp only [execForwardRequest, State.running_of_running running, path, if_neg taken]
  rfl

theorem exec_join {timeout : Word} {subs : Byte} (request : PortRequest s p tag (.join timeout subs) rest) :
    exec (.join p) s = .next (suTook s p rest
      (s.su.judge s.now ⟨p, tag, .join timeout subs⟩ (·.join s.now p tag timeout subs))) := by
  obtain ⟨running, path⟩ := request
  change execJoin p s = _
  simp only [execJoin, State.running_of_running running, path]
  rfl

theorem exec_leave (request : PortRequest s p tag .leave rest) :
    exec (.leave p) s = .next (suTook s p rest
      (s.su.judge s.now ⟨p, tag, .leave⟩ (fun u => (u.teardown p .left).answer p tag .ok []))) := by
  obtain ⟨running, path⟩ := request
  change execLeave p s = _
  simp only [execLeave, State.running_of_running running, path]
  rfl

theorem exec_ping (request : PortRequest s p tag .ping rest) :
    exec (.ping p) s = .next (suTook s p rest (s.su.judge s.now ⟨p, tag, .ping⟩
      (fun u => u.answer p tag .ok (SessionUnit.pingPayload (u.sessions.get p))))) := by
  obtain ⟨running, path⟩ := request
  change execPing p s = _
  simp only [execPing, State.running_of_running running, path]
  rfl

theorem exec_nop (request : PortRequest s p tag .nop rest) :
    exec (.nop p) s = .next (suTook s p rest (s.su.judge s.now ⟨p, tag, .nop⟩ (·.answer p tag .ok []))) := by
  obtain ⟨running, path⟩ := request
  change execNop p s = _
  simp only [execNop, State.running_of_running running, path]
  rfl

theorem exec_hostStatus (request : PortRequest s p tag .hostStatus rest) :
    exec (.hostStatus p) s = .next (suTook s p rest (s.su.judge s.now ⟨p, tag, .hostStatus⟩
      (fun u => u.answer p tag .ok (SessionUnit.statusPayload (u.sessions.get p))))) := by
  obtain ⟨running, path⟩ := request
  change execHostStatus p s = _
  simp only [execHostStatus, State.running_of_running running, path]
  rfl

/-- The expiry of an OPEN session's timer where no other timer's tick comes before it (R150, R198). -/
theorem exec_sessionTimerExpiry {e : Nat} (running : s.phase = .running) (opened : (s.su.sessions.get p).state = .opened)
    (timer : (s.su.sessions.get p).timer = some e) (comes : Comes s e) :
    exec (.sessionTimerExpiry p) s = .next { s with now := max s.now e, su := s.su.teardown p .expired } := by
  have runs : (s.su.sessions.get p).runningTimer = some e := (Session.runningTimer_eq_some _ e).mpr ⟨opened, timer⟩
  change execSessionTimerExpiry p s = _
  simp only [execSessionTimerExpiry, State.running_of_running running, runs]
  rw [State.expireAt_of_comes comes]
  rfl

end

/-! ## The gate -/

theorem Session.gate_closed {r : Session} {body : ReqBody} (closed : r.state = .closed) (join : ∀ t x, body ≠ .join t x)
    (status : body ≠ .hostStatus) (nop : body ≠ .nop) : r.gate body = some .notJoined := by
  cases gate : r.gate body with
  | none =>
    rcases Session.gate_eq_none gate with opened | ⟨-, t, x, body⟩ | body | body
    · rw [closed] at opened; cases opened
    · exact absurd body (join t x)
    · exact absurd body status
    · exact absurd body nop
  | some st =>
    rcases Session.gate_eq_some gate with ⟨-, rfl⟩ | ⟨closing, -⟩
    · rfl
    · rw [closed] at closing; cases closing

theorem Session.gate_closing {r : Session} {body : ReqBody} (closing : r.state = .closing)
    (status : body ≠ .hostStatus) (nop : body ≠ .nop) : r.gate body = some .closing := by
  cases gate : r.gate body with
  | none =>
    rcases Session.gate_eq_none gate with opened | ⟨closed, -⟩ | body | body
    · rw [closing] at opened; cases opened
    · rw [closing] at closed; cases closed
    · exact absurd body status
    · exact absurd body nop
  | some st =>
    rcases Session.gate_eq_some gate with ⟨closed, -⟩ | ⟨-, rfl⟩
    · rw [closing] at closed; cases closed
    · rfl

theorem Session.gate_closed_join {r : Session} (closed : r.state = .closed) (timeout : Word) (subs : Byte) :
    r.gate (.join timeout subs) = none := by
  cases r
  cases closed
  rfl

section
variable {u : SessionUnit} {now : Nat} {p : Port} {tag : Byte} {body : ReqBody} (effect : SessionUnit → SessionUnit)

theorem SessionUnit.judge_refused {st : Status} (refused : (u.sessions.get p).gate body = some st) :
    u.judge now ⟨p, tag, body⟩ effect = tells u p [.response ⟨st, tag, []⟩] := by
  simp only [judge, refused]
  rfl

theorem SessionUnit.judge_opened (opened : (u.sessions.get p).state = .opened) :
    u.judge now ⟨p, tag, body⟩ effect = effect (heard u now p) := by
  simp only [judge, Session.gate_opened opened, hear_opened now opened]
  rfl

theorem SessionUnit.judge_unopened (unopened : (u.sessions.get p).state ≠ .opened)
    (admitted : (u.sessions.get p).gate body = none) : u.judge now ⟨p, tag, body⟩ effect = effect u := by
  simp only [judge, admitted, hear_unopened now unopened]

end

/-- Whichever command takes it, a refused request is answered and has no other effect (R147). -/
theorem exec_of_refused {s : State} {c : Instr} {p : Port} {tag : Byte} {body : ReqBody} {rest : List Request}
    {st : Status} (request : PortRequest s p tag body rest) (takes : SuTakes c p body)
    (refused : (s.su.sessions.get p).gate body = some st) :
    exec c s = .next (suTook s p rest (tells s.su p [.response ⟨st, tag, []⟩])) := by
  rcases takes with rfl | ⟨t, x, rfl, rfl⟩ | ⟨rfl, rfl⟩ | ⟨rfl, rfl⟩
  · rw [exec_forwardRequest request fun _ => by rw [refused]; simp, SessionUnit.judge_refused _ refused]
  · rw [exec_join request, SessionUnit.judge_refused _ refused]
  · rw [exec_leave request, SessionUnit.judge_refused _ refused]
  · rw [exec_ping request, SessionUnit.judge_refused _ refused]

/-- Settles O40: the gate's refusal by the session state, whichever command takes the request. -/
theorem gateRefusesByTheSessionState : Obligations.GateRefusesByTheSessionState := by
  intro s c p tag body rest request takes status nop refused
  exact ⟨fun closed join => exec_of_refused request takes (Session.gate_closed closed join status nop),
    fun closing => exec_of_refused request takes (Session.gate_closing closing status nop)⟩

/-! ## Forwarding -/

section
variable {u : SessionUnit} {r : Request}

theorem SessionUnit.forward_si (owner : r.body.owner = .si) :
    u.forward r = { u with toSi := u.toSi ++ [.request r] } := by
  simp only [forward, owner]

theorem SessionUnit.forward_tl (owner : r.body.owner = .tl) : u.forward r = { u with toTl := u.toTl ++ [r] } := by
  simp only [forward, owner]

theorem SessionUnit.forward_tt (owner : r.body.owner = .tt) :
    u.forward r = { u with toTt := u.toTt ++ [.request r] } := by
  simp only [forward, owner]

theorem SessionUnit.forward_nu (owner : r.body.owner = .nu) :
    u.forward r = { u with toNu := u.toNu ++ [.request r] } := by
  simp only [forward, owner]

theorem SessionUnit.forward_lu (owner : r.body.owner = .lu) :
    u.forward r = { u with toLu := u.toLu ++ [.request r] } := by
  simp only [forward, owner]

theorem SessionUnit.forward_cu (owner : r.body.owner = .cu) :
    u.forward r = { u with toCu := u.toCu ++ [.request r] } := by
  simp only [forward, owner]

end

theorem exec_forwardRequest_opened {s : State} {p : Port} {tag : Byte} {body : ReqBody} {rest : List Request}
    (request : PortRequest s p tag body rest) (opened : (s.su.sessions.get p).state = .opened)
    (other : body.owner ≠ .su) :
    exec (.forwardRequest p) s = .next (suTook s p rest ((heard s.su s.now p).forward ⟨p, tag, body⟩)) := by
  rw [exec_forwardRequest request fun own => absurd own other, SessionUnit.judge_opened _ opened]

/-- Settles O41: the admitted request restarts the timer and goes to the block that `ReqBody.owner` names. -/
theorem requestIsForwardedToItsOwner : Obligations.RequestIsForwardedToItsOwner := by
  intro s p tag body rest request opened r u goes
  have forwarded : ∀ {block}, body.owner = block → block ≠ .su → goes (u.forward r) := fun owner other =>
    exec_forwardRequest_opened request opened (owner ▸ other)
  refine ⟨fun body => ?_, fun body => ?_, fun body => ?_, fun body => ?_, fun body => ?_, fun body => ?_⟩
  · have owner : r.body.owner = .si := by rcases body with h | h | h <;> exact congrArg ReqBody.owner h
    exact SessionUnit.forward_si (u := u) owner ▸ forwarded owner (by decide)
  · have owner : r.body.owner = .tl := by rcases body with h | h <;> exact congrArg ReqBody.owner h
    exact SessionUnit.forward_tl (u := u) owner ▸ forwarded owner (by decide)
  · have owner : r.body.owner = .tt := by
      rcases body with ⟨a, d, x, l, m, y, z, c, t, h⟩ | ⟨i, n, ch, a, d, t, z, h⟩ | ⟨i, n, h | h | h | h⟩ | h <;>
        exact congrArg ReqBody.owner h
    exact SessionUnit.forward_tt (u := u) owner ▸ forwarded owner (by decide)
  · have owner : r.body.owner = .nu := congrArg ReqBody.owner body
    exact SessionUnit.forward_nu (u := u) owner ▸ forwarded owner (by decide)
  · have owner : r.body.owner = .lu := by
      rcases body with ⟨l, q, w, h | h | h | h⟩ <;> exact congrArg ReqBody.owner h
    exact SessionUnit.forward_lu (u := u) owner ▸ forwarded owner (by decide)
  · have owner : r.body.owner = .cu := by
      rcases body with ⟨w, f, v, k, h | h | h⟩ | h | h | h | h | h | h | h | h <;> exact congrArg ReqBody.owner h
    exact SessionUnit.forward_cu (u := u) owner ▸ forwarded owner (by decide)

/-! ## JOIN -/

theorem joinArgs_timeout {timeout : Word} (subs : Byte) (long : 1000 < timeout.toNat) :
    joinArgs timeout subs = .error 1 := by
  rw [joinArgs, if_pos long]

theorem joinArgs_subs {timeout : Word} {subs : Byte} (good : timeout.toNat ≤ 1000) (high : 16 ≤ subs.toNat) :
    joinArgs timeout subs = .error 2 := by
  rw [joinArgs, if_neg (Nat.not_lt.mpr good), subscriptionsOf, if_neg (Nat.not_lt.mpr high)]

theorem joinArgs_ok {timeout : Word} {subs : Byte} (good : timeout.toNat ≤ 1000) (low : subs.toNat < 16) :
    joinArgs timeout subs =
      .ok ⟨subs.getLsbD 0, subs.getLsbD 1, subs.getLsbD 2, subs.getLsbD 3⟩ := by
  rw [joinArgs, if_neg (Nat.not_lt.mpr good), subscriptionsOf, if_pos low]

section
variable {u : SessionUnit} {now : Nat} {p : Port} {tag : Byte} {timeout : Word} {subs : Byte}

theorem SessionUnit.join_bad {n : Nat} (args : joinArgs timeout subs = .error n) :
    u.join now p tag timeout subs = tells u p [.response ⟨.badArgument, tag, [byteOf n]⟩] := by
  simp only [join, args]
  rfl

theorem SessionUnit.openSession_eq_sessionOpened (chosen : Subscriptions) :
    u.openSession now p timeout chosen tag = sessionOpened u now p tag timeout chosen := by
  rw [openSession_eq]
  rfl

theorem SessionUnit.join_closed {chosen : Subscriptions} (args : joinArgs timeout subs = .ok chosen)
    (closed : (u.sessions.get p).state = .closed) :
    u.join now p tag timeout subs = sessionOpened u now p tag timeout chosen := by
  simp only [join, args, closed, openSession_eq_sessionOpened]

/-- A teardown that begins in an OPEN session (R156). -/
theorem SessionUnit.teardown_eq (cause : CloseCause) :
    u.teardown p cause = tornDown u p cause (u.sessions.get p).held := rfl

theorem SessionUnit.heard_state : ((heard u now p).sessions.get p).state = (u.sessions.get p).state := by
  simp only [heard, withSession, PerPort.get_set_self]

/-- What SU hears first is overwritten by the teardown: the timer is stopped either way. -/
theorem SessionUnit.tornDown_heard (cause : CloseCause) (held : Option HeldJoin) :
    tornDown (heard u now p) p cause held = tornDown u p cause held := by
  simp only [tornDown, heard, withSession, PerPort.get_set_self, PerPort.set_set]

theorem SessionUnit.join_opened {chosen : Subscriptions} (args : joinArgs timeout subs = .ok chosen)
    (opened : (u.sessions.get p).state = .opened) :
    (heard u now p).join now p tag timeout subs = tornDown u p .rejoined (some ⟨timeout, chosen, tag⟩) := by
  have state : ((heard u now p).sessions.get p).state = .opened := heard_state.trans opened
  simp only [join, args, state]
  simp only [teardown, setSession, heard, withSession, tornDown, Session.torn, PerPort.get_set_self, PerPort.set_set]

end

/-- Settles O42: the arguments are judged alike in CLOSED and OPEN; a good JOIN opens a session or begins a rejoin. -/
theorem joinOpensOrRejoins : Obligations.JoinOpensOrRejoins := by
  intro s p tag timeout subs rest request r bad chosen
  have whenClosed : r.state = .closed → exec (.join p) s = .next (suTook s p rest (s.su.join s.now p tag timeout subs)) := by
    intro closed
    rw [exec_join request, SessionUnit.judge_unopened _ (by rw [closed]; decide)
      (Session.gate_closed_join closed timeout subs)]
  have whenOpened : r.state = .opened →
      exec (.join p) s = .next (suTook s p rest ((heard s.su s.now p).join s.now p tag timeout subs)) := by
    intro opened
    rw [exec_join request, SessionUnit.judge_opened _ opened]
  refine ⟨fun closed long => ?_, fun closed good high => ?_, fun closed good low => ?_, fun opened long => ?_,
    fun opened good high => ?_, fun opened good low => ?_⟩
  · exact (whenClosed closed).trans (by rw [SessionUnit.join_bad (joinArgs_timeout subs long)]; rfl)
  · exact (whenClosed closed).trans (by rw [SessionUnit.join_bad (joinArgs_subs good high)]; rfl)
  · rw [whenClosed closed, SessionUnit.join_closed (joinArgs_ok good low) closed]
  · exact (whenOpened opened).trans (by rw [SessionUnit.join_bad (joinArgs_timeout subs long)]; rfl)
  · exact (whenOpened opened).trans (by rw [SessionUnit.join_bad (joinArgs_subs good high)]; rfl)
  · rw [whenOpened opened, SessionUnit.join_opened (joinArgs_ok good low) opened]

/-! ## LEAVE, the expiry, PING, NOP and HOST_STATUS -/

theorem SessionUnit.teardown_heard (u : SessionUnit) (now : Nat) (p : Port) (cause : CloseCause) :
    (heard u now p).teardown p cause = tornDown u p cause (u.sessions.get p).held := by
  rw [teardown_eq, tornDown_heard, heard, withSession, PerPort.get_set_self]

theorem SessionUnit.statusPayload_heard (u : SessionUnit) (now : Nat) (p : Port) :
    statusPayload ((heard u now p).sessions.get p) = statusPayload (u.sessions.get p) := by
  rw [heard, withSession, PerPort.get_set_self]
  rfl

/-- Settles O43: each request is admitted by the gate, and an OPEN session's is heard first. -/
theorem sessionsEndAndAnswer : Obligations.SessionsEndAndAnswer := by
  intro s p tag rest r answered
  refine ⟨fun request opened => ?_, fun e running opened timer comes => exec_sessionTimerExpiry running opened timer comes,
    fun request opened => ?_, fun request => ⟨fun opened => ?_, fun unopened => ?_⟩, fun request => ?_⟩
  · rw [exec_leave request, SessionUnit.judge_opened _ opened, SessionUnit.teardown_heard]; rfl
  · rw [exec_ping request, SessionUnit.judge_opened _ opened]
    have payload : SessionUnit.pingPayload ((heard s.su s.now p).sessions.get p) = 1 :: bytes16 r.timeout := by
      rw [heard, withSession, PerPort.get_set_self, SessionUnit.pingPayload, opened]; rfl
    rw [payload]; rfl
  · rw [exec_nop request, SessionUnit.judge_opened _ opened]; rfl
  · rw [exec_nop request, SessionUnit.judge_unopened _ unopened (Session.gate_nop _)]; rfl
  · refine ⟨r.state.byte, r.lastCause.byte, fun opened => ?_, fun unopened => ?_, fun h => by rw [h]; rfl,
      fun h => by rw [h]; rfl, fun h => by rw [h]; rfl, fun h => by rw [h]; rfl, fun h => by rw [h]; rfl,
      fun h => by rw [h]; rfl, fun h => by rw [h]; rfl⟩
    · rw [exec_hostStatus request, SessionUnit.judge_opened _ opened, SessionUnit.statusPayload_heard]; rfl
    · rw [exec_hostStatus request, SessionUnit.judge_unopened _ unopened (Session.gate_hostStatus _)]; rfl

/-! ## Done reports -/

theorem exec_doneReport {s s' : State} {block : Block} {p : Port} (next : DoneNext s block p s') :
    exec (.doneReport block) s = .next { s' with su := s.su.takeDone s.now block p } := by
  obtain ⟨running, done⟩ := next
  change execDoneReport block s = _
  rcases done with ⟨rfl, rest, path, rfl⟩ | ⟨rfl, rest, path, rfl⟩ | ⟨rfl, rest, path, rfl⟩ | ⟨rfl, rest, path, rfl⟩ |
      ⟨rfl, rest, path, rfl⟩ <;>
    (simp only [execDoneReport, State.running_of_running running, path]; rfl)

section
variable {u : SessionUnit} {now : Nat} {block : Block} {p : Port}

/-- SU with an awaited report taken off the set, and TT's handed on to LU (R157). -/
def SessionUnit.reported (u : SessionUnit) (block : Block) (p : Port) : SessionUnit :=
  withSession { u with toLu := u.toLu ++ if block = .tt then [.releaseAll p] else [] } p
    { u.sessions.get p with awaited := (u.sessions.get p).awaited.without block }

theorem SessionUnit.reported_session : (u.reported block p).sessions.get p =
    { u.sessions.get p with awaited := (u.sessions.get p).awaited.without block } := by
  rw [reported, withSession, PerPort.get_set_self]

/-- An awaited done report leaves the set, and the last one finishes the teardown (R157). -/
theorem SessionUnit.takeDone_awaited (now : Nat) (closing : (u.sessions.get p).state = .closing)
    (awaited : (u.sessions.get p).awaited.has block = true) :
    u.takeDone now block p = if (u.sessions.get p).awaited.without block = AwaitedDone.none then
      (u.reported block p).finish now p else u.reported block p := by
  unfold takeDone
  by_cases table : block = .tt
  · simp only [closing, awaited, and_self, if_true, if_pos table, reported]; rfl
  · simp only [closing, awaited, and_self, if_true, if_neg table, List.append_nil, reported]; rfl

/-- A teardown without a held JOIN ends CLOSED (R157). -/
theorem SessionUnit.finish_closed (now : Nat) (none : (u.sessions.get p).held = none) :
    u.finish now p = withSession u p { u.sessions.get p with state := .closed } := by
  simp only [finish, setSession, PerPort.get_set_self, none]
  rfl

/-- A teardown with a held JOIN opens its session (R157). -/
theorem SessionUnit.finish_rejoined {j : HeldJoin} (now : Nat) (held : (u.sessions.get p).held = some j) :
    u.finish now p = sessionOpened u now p j.tag j.timeout j.subs := by
  simp only [finish, setSession, PerPort.get_set_self, held, openSession_eq_sessionOpened]
  simp only [sessionOpened, withSession, PerPort.get_set_self, PerPort.set_set]

end

/-- Settles O44: an awaited report leaves the set; with the set empty, `finish` closes the session or opens the held one. -/
theorem doneReportsCompleteTheTeardown : Obligations.DoneReportsCompleteTheTeardown := by
  intro s s' block p next r left u taken
  have done : ∀ {u'}, s.su.takeDone s.now block p = u' → taken u' := fun h => h ▸ exec_doneReport next
  refine ⟨fun ignored => done (SessionUnit.takeDone_ignored ignored), fun closing awaited => ?_⟩
  have report := SessionUnit.takeDone_awaited s.now closing awaited
  have session := SessionUnit.reported_session (u := s.su) (block := block) (p := p)
  refine ⟨fun more => done (report.trans (if_neg more)), fun empty none => done ?_, fun j empty held => done ?_⟩
  · rw [report, if_pos (by exact empty), SessionUnit.finish_closed _ (by rw [session]; exact none), session,
      SessionUnit.reported, withSession, withSession, PerPort.set_set]
    rfl
  · rw [report, if_pos (by exact empty), SessionUnit.finish_rejoined _ (by rw [session]; exact held)]
    rfl

end Sys2Proof.Machine
end

section
/-! The Configuration Unit: the lease, its gate, the parameter banks and their activation (R162 to R177): O45 to O49. -/

namespace Sys2Proof.Machine
open Sys2Proof.Claims

/-! ## The commands -/

section
variable {s : State} {p : Port} {tag : Byte} {rest : List SuCuMsg}

theorem exec_leaseTake {wait : Byte} (request : LeaseRequest s p tag (.leaseTake wait) rest) :
    exec .leaseTake s = .next { s.takeSuCu rest with cu := s.cu.leaseTake p tag wait } := by
  obtain ⟨running, path⟩ := request
  change execLeaseTake s = _
  simp only [execLeaseTake, State.running_of_running running, path]

theorem exec_leaseDrop (request : LeaseRequest s p tag .leaseDrop rest) :
    exec .leaseDrop s = .next { s.takeSuCu rest with cu := s.cu.leaseDrop p tag } := by
  obtain ⟨running, path⟩ := request
  change execLeaseDrop s = _
  simp only [execLeaseDrop, State.running_of_running running, path]

theorem exec_leaseCancel (request : LeaseRequest s p tag .leaseCancel rest) :
    exec .leaseCancel s = .next { s.takeSuCu rest with cu := s.cu.leaseCancel p tag } := by
  obtain ⟨running, path⟩ := request
  change execLeaseCancel s = _
  simp only [execLeaseCancel, State.running_of_running running, path]

theorem exec_purgeAtCu (running : s.phase = .running) (path : s.su.toCu = .purge p :: rest) :
    exec .purgeAtCu s = .next { s.takeSuCu rest with cu := s.cu.purge p } := by
  change execPurgeAtCu s = _
  simp only [execPurgeAtCu, State.running_of_running running, path]

theorem exec_paramWrite {field : Byte} {value : Word} (request : LeaseRequest s p tag (.paramWrite field value) rest) :
    exec .paramWrite s =
      .next { s.takeSuCu rest with cu := s.cu.gated p tag (·.paramWrite p tag field value) } := by
  obtain ⟨running, path⟩ := request
  change execParamWrite s = _
  simp only [execParamWrite, State.running_of_running running, path]

theorem exec_paramCopy (request : LeaseRequest s p tag .paramCopy rest) :
    exec .paramCopy s = .next { s.takeSuCu rest with cu := s.cu.gated p tag (·.paramCopy p tag) } := by
  obtain ⟨running, path⟩ := request
  change execParamCopy s = _
  simp only [execParamCopy, State.running_of_running running, path]

theorem exec_paramRead {selector field : Byte} (request : LeaseRequest s p tag (.paramRead selector field) rest) :
    exec .paramRead s = .next { s.takeSuCu rest with cu := s.cu.paramRead p tag selector field } := by
  obtain ⟨running, path⟩ := request
  change execParamRead s = _
  simp only [execParamRead, State.running_of_running running, path]

theorem exec_activate (request : LeaseRequest s p tag .activate rest) :
    exec .activate s = .next { s.takeSuCu rest with cu := s.cu.gated p tag (·.activate p tag) } := by
  obtain ⟨running, path⟩ := request
  change execActivate s = _
  simp only [execActivate, State.running_of_running running, path]

theorem exec_leaseGatedForward {body : ReqBody} (request : LeaseRequest s p tag body rest)
    (forwarded : body.forwardedByCu = true) :
    exec .leaseGatedForward s =
      .next { s.takeSuCu rest with cu := s.cu.gated p tag (·.forwardGated ⟨p, tag, body⟩) } := by
  obtain ⟨running, path⟩ := request
  change execLeaseGatedForward s = _
  simp only [execLeaseGatedForward, State.running_of_running running, path, forwarded, if_true]

end

section
variable {s : State} {rest : List TlCuMsg} (running : s.phase = .running)
include running

theorem exec_stateMessage {new : LoopState} (path : s.tl.toCu = .state new :: rest) :
    exec .stateMessage s = .next { s.takeTlCu rest with cu := s.cu.takeState new } := by
  change execStateMessage s = _
  simp only [execStateMessage, State.running_of_running running, path]

theorem exec_boundaryMessage (path : s.tl.toCu = .boundary :: rest) :
    exec .boundaryMessage s = .next { s.takeTlCu rest with cu := s.cu.takeBoundary } := by
  change execBoundaryMessage s = _
  simp only [execBoundaryMessage, State.running_of_running running, path]

end

/-! ## LEASE_TAKE -/

theorem waitOf_of_lt {w : Byte} (low : w.toNat < 2) : ∃ b, waitOf w = some b := by
  rcases (by omega : w.toNat = 0 ∨ w.toNat = 1) with zero | one
  · exact ⟨false, by simp only [waitOf, zero]⟩
  · exact ⟨true, by simp only [waitOf, one]⟩

section
variable {c : ConfigUnit} {p : Port} {tag wait : Byte} {w : Bool}

theorem ConfigUnit.leaseTake_bad (high : 2 ≤ wait.toNat) :
    c.leaseTake p tag wait = c.answer p tag .badArgument [1] := by
  simp only [leaseTake, waitOf_eq_none high]

variable (flag : waitOf wait = some w)
include flag

theorem ConfigUnit.leaseTake_free (free : c.holder = none) :
    c.leaseTake p tag wait = (Claims.heldBy c (some p) false).answer p tag .ok [] := by
  simp only [leaseTake, flag, free]
  rfl

theorem ConfigUnit.leaseTake_holder (holder : c.holder = some p) :
    c.leaseTake p tag wait = c.answer p tag .ok [] := by
  simp only [leaseTake, flag, holder, if_true]

variable {q : Port} (holder : c.holder = some q) (other : q ≠ p)
include holder other

theorem ConfigUnit.leaseTake_waiting {before after : List Port} (waiting : c.waiting = before ++ p :: after)
    (first : p ∉ before) :
    c.leaseTake p tag wait = c.answer p tag .leaseQueued [byteOf (before.length + 1)] := by
  have waits : p ∈ before ++ p :: after := List.mem_append_right _ List.mem_cons_self
  simp only [leaseTake, flag, holder, if_neg other, waiting, if_pos waits, position_eq first]

theorem ConfigUnit.leaseTake_refused (absent : p ∉ c.waiting) (noWait : w = false) :
    c.leaseTake p tag wait = c.answer p tag .leaseHeld [q.byte] := by
  simp only [leaseTake, flag, holder, if_neg other, if_neg absent, noWait, Bool.false_eq_true, if_false]

theorem ConfigUnit.leaseTake_joins (absent : p ∉ c.waiting) (waits : w = true) :
    c.leaseTake p tag wait = ConfigUnit.answer { c with waiting := c.waiting ++ [p] } p tag .leaseQueued
      [byteOf (c.waiting.length + 1)] := by
  simp only [leaseTake, flag, holder, if_neg other, if_neg absent, waits, if_true]

end

/-- Settles O45: the wait flag is judged first, then the holder and the caller's place in the list. -/
theorem leaseIsTakenOrWaitedFor : Obligations.LeaseIsTakenOrWaitedFor := by
  intro s p tag wait rest request c out
  have take : exec .leaseTake s = _ := exec_leaseTake request
  refine ⟨fun high => ?_, fun low => ?_⟩
  · exact take.trans (by rw [ConfigUnit.leaseTake_bad high]; rfl)
  obtain ⟨w, flag⟩ := waitOf_of_lt low
  refine ⟨fun free => ?_, fun holder => ?_, fun q before after holder other waiting first => ?_,
    fun q holder other absent => ⟨fun zero => ?_, fun one => ?_⟩⟩
  · exact take.trans (by rw [ConfigUnit.leaseTake_free flag free]; rfl)
  · exact take.trans (by rw [ConfigUnit.leaseTake_holder flag holder]; rfl)
  · exact take.trans (by rw [ConfigUnit.leaseTake_waiting flag holder other waiting first]; rfl)
  · subst zero
    exact take.trans (by rw [ConfigUnit.leaseTake_refused (w := false) rfl holder other absent rfl]; rfl)
  · subst one
    exact take.trans (by rw [ConfigUnit.leaseTake_joins (w := true) rfl holder other absent rfl]; rfl)

/-! ## LEASE_DROP, LEASE_CANCEL and the purge -/

theorem ConfigUnit.handOn_eq_handedOn (c : ConfigUnit) : c.handOn = handedOn c := by
  unfold handOn handedOn
  cases c.waiting <;> rfl

section
variable {c : ConfigUnit} {p : Port} {tag : Byte}

theorem ConfigUnit.leaseDrop_holder (holder : c.holder = some p) :
    c.leaseDrop p tag = (handedOn c).answer p tag .ok [portByte (handedOn c).holder] := by
  rw [leaseDrop, if_pos holder, handOn_eq_handedOn]

theorem ConfigUnit.leaseDrop_other (other : c.holder ≠ some p) :
    c.leaseDrop p tag = c.answer p tag .noLease [portByte c.holder] :=
  if_neg other

theorem ConfigUnit.leaseCancel_waiting {before after : List Port} (waiting : c.waiting = before ++ p :: after)
    (once : c.waiting.Nodup) :
    c.leaseCancel p tag = ConfigUnit.answer { c with waiting := before ++ after } p tag .ok [] := by
  have waits : p ∈ c.waiting := waiting ▸ List.mem_append_right _ List.mem_cons_self
  have without : c.waiting.filter (· ≠ p) = before ++ after := by
    rw [waiting] at once ⊢
    exact waiting_without once
  rw [leaseCancel, if_pos waits, without]

theorem ConfigUnit.leaseCancel_absent (absent : p ∉ c.waiting) : c.leaseCancel p tag = c.answer p tag .noEntry [] :=
  if_neg absent

theorem ConfigUnit.purge_holder (holder : c.holder = some p) (absent : p ∉ c.waiting) :
    c.purge p = { handedOn c with toSu := c.toSu ++ [p] } := by
  have rest : (handedOn c).waiting.filter (· ≠ p) = (handedOn c).waiting := by
    rw [← handOn_eq_handedOn, handOn_eq]
    exact waiting_without_absent fun h => absent (List.mem_of_mem_tail h)
  have same : (handedOn c).toSu = c.toSu := by rw [← handOn_eq_handedOn, handOn_toSu]
  simp only [purge, if_pos holder, handOn_eq_handedOn, rest, same]

theorem ConfigUnit.purge_other {waiting : List Port} (other : c.holder ≠ some p)
    (without : c.waiting.filter (· ≠ p) = waiting) :
    c.purge p = { c with waiting := waiting, toSu := c.toSu ++ [p] } := by
  simp only [purge, if_neg other, without]

end

/-- Settles O46: the holder's drop or purge hands the lease on; a cancel or a purge takes a waiting port off the list. -/
theorem leaseMovesOn : Obligations.LeaseMovesOn := by
  intro s p tag rest once apart c
  refine ⟨fun request => ⟨fun holder => ?_, fun other => ?_⟩,
    fun request => ⟨fun before after waiting => ?_, fun absent => ?_⟩, fun running path => ?_⟩
  · rw [exec_leaseDrop request, ConfigUnit.leaseDrop_holder holder]; rfl
  · rw [exec_leaseDrop request, ConfigUnit.leaseDrop_other other]; rfl
  · rw [exec_leaseCancel request, ConfigUnit.leaseCancel_waiting waiting once]; rfl
  · rw [exec_leaseCancel request, ConfigUnit.leaseCancel_absent absent]; rfl
  intro out
  have purge : exec .purgeAtCu s = _ := exec_purgeAtCu running path
  refine ⟨fun holder => ?_, fun before after waiting => ?_, fun other absent => ?_⟩
  · exact purge.trans (by rw [ConfigUnit.purge_holder holder (apart p holder)]; rfl)
  · have waits : p ∈ c.waiting := waiting ▸ List.mem_append_right _ List.mem_cons_self
    have without : c.waiting.filter (· ≠ p) = before ++ after := by
      have once : (before ++ p :: after).Nodup := waiting ▸ once
      rw [waiting, waiting_without once]
    exact purge.trans (by rw [ConfigUnit.purge_other (fun holder => apart p holder waits) without]; rfl)
  · exact purge.trans (by rw [ConfigUnit.purge_other other (waiting_without_absent absent)]; rfl)

/-! ## The lease gate -/

section
variable {c : ConfigUnit} {p : Port} {tag : Byte} (effect : ConfigUnit → ConfigUnit)

theorem ConfigUnit.gated_holder (holder : c.holder = some p) : c.gated p tag effect = effect c := if_pos holder

theorem ConfigUnit.gated_other (other : c.holder ≠ some p) :
    c.gated p tag effect = c.answer p tag .noLease [portByte c.holder] := if_neg other

end

/-- A gated request from any port but the holder, whichever command takes it (R168). -/
theorem exec_of_no_lease {s : State} {p : Port} {tag : Byte} {body : ReqBody} {rest : List SuCuMsg} {cmd : Instr}
    (request : LeaseRequest s p tag body rest) (gated : Gated cmd body) (other : s.cu.holder ≠ some p) :
    exec cmd s = .next (leaseAnswers s rest s.cu p tag .noLease [holderByte s.cu.holder]) := by
  rcases gated with ⟨f, v, rfl, rfl⟩ | ⟨rfl, rfl⟩ | ⟨rfl, rfl⟩ | ⟨rfl, body⟩
  · rw [exec_paramWrite request, ConfigUnit.gated_other _ other]; rfl
  · rw [exec_paramCopy request, ConfigUnit.gated_other _ other]; rfl
  · rw [exec_activate request, ConfigUnit.gated_other _ other]; rfl
  · rw [exec_leaseGatedForward request (by rcases body with rfl | rfl | rfl | rfl <;> rfl),
      ConfigUnit.gated_other _ other]
    rfl

/-- Settles O47: the gate's refusal, and the holder's four requests passed on to TL or SI. -/
theorem leaseGatesAndForwards : Obligations.LeaseGatesAndForwards := by
  intro s p tag body rest request out
  refine ⟨fun cmd gated other => exec_of_no_lease request gated other, fun holder loop => ?_, fun holder counters => ?_⟩
  · rcases loop with rfl | rfl | rfl <;>
      (rw [exec_leaseGatedForward request rfl, ConfigUnit.gated_holder _ holder]; rfl)
  · subst counters
    rw [exec_leaseGatedForward request rfl, ConfigUnit.gated_holder _ holder]
    rfl

/-! ## The parameter banks -/

theorem ConfigUnit.activeBank_eq (c : ConfigUnit) : c.activeBank = activeOf c := by
  unfold activeBank activeOf
  cases c.activeIndex <;> rfl

theorem ConfigUnit.standbyBank_eq (c : ConfigUnit) : c.standbyBank = standbyOf c := by
  unfold standbyBank standbyOf
  cases c.activeIndex <;> rfl

theorem ConfigUnit.setStandby_eq (c : ConfigUnit) (b : Bank) : c.setStandby b = withStandby c b := by
  unfold setStandby withStandby
  cases c.activeIndex <;> rfl

theorem ConfigUnit.swap_eq (c : ConfigUnit) : c.swap = swapped c := by
  unfold swap swapped
  cases c.activeIndex <;> rfl

/-- The fields in the order of their ids, 00h to 14h (R170). -/
def FieldId.inOrder : List FieldId :=
  [.offS, .offC, .gainC, .aLow, .aHigh, .persistence, .staleTimeout, .coastLimit, .window, .tu, .td, .tl, .lw,
    .ceiling, .floor, .vmax, .holdOnRecovery, .quota0, .quota1, .quota2, .quota3]

/-- The least and the greatest value of a field (R170). -/
def FieldId.range : FieldId → Int × Int
  | .offS | .offC => (-128, 127)
  | .gainC => (768, 1280)
  | .aLow => (64, 2046)
  | .aHigh => (65, 2047)
  | .persistence => (1, 15)
  | .staleTimeout => (50, 2000)
  | .coastLimit => (1, 255)
  | .window => (16, 128)
  | .tu => (1, 128)
  | .td | .tl => (0, 127)
  | .lw => (1, 8)
  | .ceiling | .floor => (0, 7)
  | .vmax => (64, 8191)
  | .holdOnRecovery => (0, 1)
  | .quota0 | .quota1 | .quota2 | .quota3 => (0, 64)

theorem fieldTable_eq (b : Bank) : fieldTable b = FieldId.inOrder.map (fun g => (b.field g, g.range)) := rfl

theorem fieldOf_eq (f : Byte) : fieldOf f = FieldId.inOrder[f.toNat]? := by
  revert f
  decide

theorem fieldOf_eq_none (f : Byte) : fieldOf f = none ↔ 21 ≤ f.toNat := by
  rw [fieldOf_eq, List.getElem?_eq_none_iff]
  rfl

theorem FieldId.inOrder_getElem? {k : Nat} {g : FieldId} : inOrder[k]? = some g ↔ k = g.byte.toNat := by
  have own : inOrder[g.byte.toNat]? = some g := by cases g <;> rfl
  constructor
  · intro named
    obtain ⟨inside, -⟩ := List.getElem?_eq_some_iff.mp named
    exact (List.getElem?_inj inside (by decide)).mp (named.trans own.symm)
  · rintro rfl
    exact own

theorem FieldId.inRange_iff (g : FieldId) (v : Int) : g.inRange v = true ↔
    g.range.1 ≤ v ∧ v ≤ g.range.2 ∧ (g = .window → v = 16 ∨ v = 32 ∨ v = 64 ∨ v = 128) := by
  cases g <;> simp [inRange, range]
  omega

/-- The range of a field id as the table states it is that of the field it names. -/
theorem inRange_iff_field (f : Nat) (v : Int) :
    InRange f v ↔ ∃ g, FieldId.inOrder[f]? = some g ∧ g.inRange v = true := by
  have window : ∀ g, FieldId.inOrder[f]? = some g → (f = 8 ↔ g = .window) := fun g named => by
    rw [FieldId.inOrder_getElem?.mp named]
    cases g <;> decide
  constructor
  · rintro ⟨x, lo, hi, entry, low, high, four⟩
    rw [fieldTable_eq, List.getElem?_map, Option.map_eq_some_iff] at entry
    obtain ⟨g, named, same⟩ := entry
    obtain ⟨-, range⟩ := Prod.mk.inj same
    refine ⟨g, named, (g.inRange_iff v).mpr ?_⟩
    rw [range]
    exact ⟨low, high, fun isWindow => four ((window g named).mpr isWindow)⟩
  · rintro ⟨g, named, ranged⟩
    obtain ⟨low, high, four⟩ := (g.inRange_iff v).mp ranged
    refine ⟨Bank.default.field g, g.range.1, g.range.2, ?_, low, high, fun eight => four ((window g named).mp eight)⟩
    rw [fieldTable_eq, List.getElem?_map, named]
    rfl

/-- One field set in a bank replaces that field's line of the table and no other (R171). -/
theorem fieldTable_setField {b : Bank} {f : Nat} {g : FieldId} {v : Int} (named : FieldId.inOrder[f]? = some g)
    (ranged : g.inRange v = true) {k : Nat} {x : Int × Int × Int} (entry : (fieldTable b)[k]? = some x) :
    (fieldTable (b.setField g v))[k]? = some (if k = f then (v, x.2) else x) := by
  rw [fieldTable_eq, List.getElem?_map, Option.map_eq_some_iff] at entry ⊢
  obtain ⟨h, place, rfl⟩ := entry
  refine ⟨h, place, ?_⟩
  split
  next same =>
    obtain rfl : h = g := Option.some.inj (place.symm.trans (same ▸ named))
    rw [Bank.field_setField_self b ranged]
  next other =>
    have differs : h ≠ g := fun same => other (by
      rw [FieldId.inOrder_getElem?.mp place, FieldId.inOrder_getElem?.mp named, same])
    rw [Bank.field_setField_other b v differs]

section
variable {c : ConfigUnit} {p : Port} {tag f : Byte} {v : Word}

theorem ConfigUnit.paramWrite_pending (pending : c.activationPending = true) :
    c.paramWrite p tag f v = c.answer p tag .activationPending [] := if_pos pending

theorem ConfigUnit.paramWrite_no_field (idle : c.activationPending = false) (high : 21 ≤ f.toNat) :
    c.paramWrite p tag f v = c.answer p tag .badArgument [1] := by
  simp only [paramWrite, idle, Bool.false_eq_true, if_false, (fieldOf_eq_none f).mpr high]

theorem ConfigUnit.paramWrite_out_of_range (idle : c.activationPending = false) (low : f.toNat < 21)
    (out : ¬ InRange f.toNat v.toInt) : c.paramWrite p tag f v = c.answer p tag .badArgument [2] := by
  obtain ⟨g, named⟩ := Option.ne_none_iff_exists'.mp fun none => Nat.not_le.mpr low ((fieldOf_eq_none f).mp none)
  have bad : ¬ g.inRange v.toInt = true := fun ranged =>
    out ((inRange_iff_field _ _).mpr ⟨g, (fieldOf_eq f).symm.trans named, ranged⟩)
  simp only [paramWrite, idle, Bool.false_eq_true, if_false, named, if_neg bad]

theorem ConfigUnit.paramWrite_ok {g : FieldId} (idle : c.activationPending = false)
    (named : FieldId.inOrder[f.toNat]? = some g) (ranged : g.inRange v.toInt = true) :
    c.paramWrite p tag f v =
      (withStandby c ((standbyOf c).setField g v.toInt)).answer p tag .ok (f :: bytes16 v) := by
  simp only [paramWrite, idle, Bool.false_eq_true, if_false, (fieldOf_eq f).trans named, if_pos ranged, setStandby_eq,
    standbyBank_eq]
  rfl

theorem ConfigUnit.paramCopy_pending (pending : c.activationPending = true) :
    c.paramCopy p tag = c.answer p tag .activationPending [] := if_pos pending

theorem ConfigUnit.paramCopy_ok (idle : c.activationPending = false) :
    c.paramCopy p tag = (withStandby c (activeOf c)).answer p tag .ok [] := by
  simp only [paramCopy, idle, Bool.false_eq_true, if_false, setStandby_eq, activeBank_eq]

theorem ConfigUnit.paramRead_bad_selector {sel : Byte} (high : 2 ≤ sel.toNat) :
    c.paramRead p tag sel f = c.answer p tag .badArgument [1] := if_pos high

theorem ConfigUnit.paramRead_no_field {sel : Byte} (low : sel.toNat < 2) (high : 21 ≤ f.toNat) :
    c.paramRead p tag sel f = c.answer p tag .badArgument [2] := by
  simp only [paramRead, if_neg (Nat.not_le.mpr low), (fieldOf_eq_none f).mpr high]

theorem ConfigUnit.paramRead_active {g : FieldId} (named : FieldId.inOrder[f.toNat]? = some g) :
    c.paramRead p tag 0 f = c.answer p tag .ok (c.readPayload c.activeIndex (activeOf c) g) := by
  simp only [paramRead, (fieldOf_eq f).trans named, activeBank_eq]
  rfl

theorem ConfigUnit.paramRead_standby {g : FieldId} (named : FieldId.inOrder[f.toNat]? = some g) :
    c.paramRead p tag 1 f = c.answer p tag .ok (c.readPayload c.activeIndex.other (standbyOf c) g) := by
  simp only [paramRead, (fieldOf_eq f).trans named, standbyBank_eq]
  rfl

end

/-- Settles O48: a write is judged by the pending flag, the field id and the range; the rest is one bank put or read. -/
theorem parametersWrittenCopiedAndRead : Obligations.ParametersWrittenCopiedAndRead := by
  intro s p tag rest c out
  refine ⟨fun f v request holder => ?_, fun request holder => ?_, fun sel f request => ?_⟩
  · have write : exec .paramWrite s = _ := exec_paramWrite request
    rw [ConfigUnit.gated_holder _ holder] at write
    refine ⟨fun pending => ?_, fun idle high => ?_, fun idle low outside => ?_, fun idle ranged => ?_⟩
    · exact write.trans (by rw [ConfigUnit.paramWrite_pending pending]; rfl)
    · exact write.trans (by rw [ConfigUnit.paramWrite_no_field idle high]; rfl)
    · exact write.trans (by rw [ConfigUnit.paramWrite_out_of_range idle low outside]; rfl)
    · obtain ⟨g, named, ranged⟩ := (inRange_iff_field _ _).mp ranged
      refine ⟨(standbyOf c).setField g v.toInt, write.trans ?_, fun k x entry => fieldTable_setField named ranged entry⟩
      rw [ConfigUnit.paramWrite_ok idle named ranged]
      rfl
  · have copy : exec .paramCopy s = _ := exec_paramCopy request
    rw [ConfigUnit.gated_holder _ holder] at copy
    refine ⟨fun pending => ?_, fun idle => ?_⟩
    · exact copy.trans (by rw [ConfigUnit.paramCopy_pending pending]; rfl)
    · exact copy.trans (by rw [ConfigUnit.paramCopy_ok idle]; rfl)
  · have read : exec .paramRead s = _ := exec_paramRead request
    refine ⟨fun high => ?_, fun low high => ?_, fun x entry low => ⟨_, rfl, ?_⟩⟩
    · exact read.trans (by rw [ConfigUnit.paramRead_bad_selector high]; rfl)
    · exact read.trans (by rw [ConfigUnit.paramRead_no_field low high]; rfl)
    · rw [fieldTable_eq, List.getElem?_map, Option.map_eq_some_iff] at entry
      obtain ⟨g, named, rfl⟩ := entry
      rcases (by omega : sel.toNat = 0 ∨ sel.toNat = 1) with zero | one
      · obtain rfl : sel = 0 := BitVec.eq_of_toNat_eq zero
        refine read.trans ?_
        rw [ConfigUnit.paramRead_active named, ConfigUnit.readPayload]
        cases c.activeIndex <;> rfl
      · obtain rfl : sel = 1 := BitVec.eq_of_toNat_eq one
        refine read.trans ?_
        rw [ConfigUnit.paramRead_standby named, ConfigUnit.readPayload]
        cases c.activeIndex <;> rfl

/-! ## Activation -/

theorem ConfigUnit.activate_checked {c : ConfigUnit} (p : Port) (tag : Byte) (idle : c.activationPending = false) :
    (∀ f, (standbyOf c).crossFailure = some f → c.activate p tag = c.answer p tag .badParams [f.byte]) ∧
      ((standbyOf c).crossFailure = none →
        (c.loopIdle = true →
          c.activate p tag = (swapped c).answer p tag .ok [if c.activeIndex = .bank0 then 1 else 0]) ∧
        (c.loopIdle = false →
          c.activate p tag = ConfigUnit.answer { c with activationPending := true } p tag .accepted [])) := by
  refine ⟨fun f fails => ?_, fun passes => ⟨fun loopIdle => ?_, fun busy => ?_⟩⟩
  · simp only [activate, idle, Bool.false_eq_true, if_false, standbyBank_eq, fails]
  · have byte : c.activeIndex.other.byte = if c.activeIndex = .bank0 then 1 else 0 := by cases c.activeIndex <;> rfl
    simp only [activate, idle, Bool.false_eq_true, if_false, standbyBank_eq, passes, loopIdle, if_true, swap_eq, byte]
  · simp only [activate, idle, Bool.false_eq_true, if_false, standbyBank_eq, passes, busy]

/-- Settles O49: ACTIVATE by the pending flag, the cross-field checks and the loop-idle flag; then the messages from TL. -/
theorem banksAreActivated : Obligations.BanksAreActivated := by
  intro s running c b
  refine ⟨fun p tag rest request holder => ?_, fun new rest path => ?_,
    fun rest path => ⟨fun pending => ?_, fun idle => ?_⟩⟩
  · have activate : exec .activate s = _ := exec_activate request
    rw [ConfigUnit.gated_holder _ holder] at activate
    intro out
    have fails : ∀ f, c.activationPending = false → b.crossFailure = some f → out c .badParams [f.byte] :=
      fun f idle failure => activate.trans (by rw [(ConfigUnit.activate_checked p tag idle).1 f failure]; rfl)
    have check := Bank.crossFailure_eq b
    refine ⟨fun pending => ?_, fun idle high => fails .aLow idle (check.trans (if_pos high)),
      fun idle low down => fails .td idle ?_, fun idle low up below => fails .ceiling idle ?_,
      fun idle low up above => ?_⟩
    · exact activate.trans (by rw [ConfigUnit.activate, if_pos pending]; rfl)
    · rw [check, if_neg (Nat.not_le.mpr low), if_pos down]
    · rw [check, if_neg (Nat.not_le.mpr low), if_neg (Nat.not_le.mpr up), if_pos below]
    · have passes := (Bank.crossFailure_eq_none b).mpr ⟨low, up, above⟩
      obtain ⟨-, checked⟩ := ConfigUnit.activate_checked p tag idle
      obtain ⟨swaps, waits⟩ := checked passes
      exact ⟨fun loopIdle => activate.trans (by rw [swaps loopIdle]; rfl),
        fun busy => activate.trans (by rw [waits busy]; rfl)⟩
  · rw [exec_stateMessage running path]
    cases new <;> rfl
  · rw [exec_boundaryMessage running path, ConfigUnit.takeBoundary, if_pos pending, ConfigUnit.swap_eq]; rfl
  · rw [exec_boundaryMessage running path, ConfigUnit.takeBoundary, if_neg (by rw [idle]; decide)]; rfl

end Sys2Proof.Machine
end

section
/-! The Host Ports: the transaction, the judgement of a frame, the image and what HP takes from the blocks
(R181 to R192): O50 to O53. -/

namespace Sys2Proof.Machine
open Sys2Proof.Claims

/-! ## What SDOn shifts out -/

theorem image_then_fill (image : List Byte) {n k : Nat} (inside : k < image.length + n) :
    (image ++ List.replicate n 0xFF)[k]? = some ((image[k]?).getD 0xFF) := by
  by_cases own : k < image.length
  · rw [List.getElem?_append_left own, List.getElem?_eq_getElem own, Option.getD_some]
  · have past : image.length ≤ k := Nat.le_of_not_lt own
    rw [List.getElem?_append_right past, List.getElem?_replicate, if_pos (by omega), List.getElem?_eq_none past,
      Option.getD_none]

/-- The levels of an image and the fill bytes after it are the bits `sdoBit` names (R182, R183). -/
theorem shiftedOut_eq (image : List Byte) (n : Nat) : shiftedOut image n = (List.range n).map (sdoBit image) := by
  apply List.ext_getElem?
  intro k
  rw [shiftedOut, List.getElem?_take, List.getElem?_map]
  by_cases shown : k < n
  · rw [if_pos shown, byteLevels_getElem?, image_then_fill image (by omega), List.getElem?_range shown]
    rfl
  · rw [if_neg shown, List.getElem?_eq_none (by simpa using shown)]
    rfl

/-! ## A transaction clocked and closed -/

/-- A transaction that opened with no bit clocked, after the levels given. -/
def clocked (kind : TransactionKind) (image : List Byte) (levels : List Bool) : Transaction :=
  levels.foldl Transaction.clock ⟨kind, image, 0, [], 0⟩

theorem clocked_kind (kind : TransactionKind) (image : List Byte) (levels : List Bool) :
    (clocked kind image levels).kind = kind :=
  (Transaction.clock_counts levels _).2.1

/-- Whole bytes and fewer than eight levels after them: every bit counted, the first sixteen bytes kept (R182). -/
theorem clocked_bytes (kind : TransactionKind) (image bytes : List Byte) {more : List Bool} (part : more.length < 8) :
    (clocked kind image (byteLevels bytes ++ more)).bitCount = 8 * bytes.length + more.length ∧
      (clocked kind image (byteLevels bytes ++ more)).received = bytes.take 16 := by
  have whole := Transaction.clock_bytes bytes ⟨kind, image, 0, [], 0⟩ 0 rfl rfl (Nat.zero_le _)
  rw [clocked, List.foldl_append, whole]
  constructor
  · rw [(Transaction.clock_counts more _).1, Nat.zero_add]
  · rw [Transaction.clock_part more _ (by dsimp only; omega)]
    rfl

section
variable {s : State} {p : Port} {kind : TransactionKind} {image : List Byte} (levels : List Bool)
  (opened : TransactionOpen s p kind image)
include opened

/-- The edges of SCKn in an open transaction (R182, R183). -/
theorem clock_of_open : levels.foldl HostPort.clock (s.hp.get p) = { s.hp.get p with
    transaction := some (clocked kind image levels), sdo := .driven (sdoBit image levels.length)
    sdoShown := shiftedOut image levels.length } := by
  obtain ⟨-, transaction, ⟨level, sdo, first⟩, shown⟩ := opened
  have bit : level = sdoBit image 0 := by
    rw [shiftedOut_eq] at first
    exact (List.singleton_inj.mp first).symm
  rw [HostPort.clock_shifts levels _ _ transaction (by rw [sdo, bit]), shown, shiftedOut_eq]
  simp only [List.nil_append, Nat.zero_add]
  rfl

theorem exec_csRises : exec (.csRises p levels) s = .next (s.setHp p (HostPort.rise { s.hp.get p with
    transaction := some (clocked kind image levels), sdo := .driven (sdoBit image levels.length)
    sdoShown := shiftedOut image levels.length } p (clocked kind image levels))) := by
  change execCsRises p levels s = _
  simp only [execCsRises, State.running_of_running opened.1, clock_of_open levels opened]

/-- A PENDING slot's transaction is discarded (R184). -/
theorem exec_csRises_pending (pending : kind = .pending) :
    exec (.csRises p levels) s = .next (closedWith s p image levels.length (s.hp.get p).slot) := by
  rw [exec_csRises levels opened, HostPort.rise, clocked_kind, pending]
  rfl

variable (requests : kind ≠ .pending)
include requests

/-- A transaction of an IDLE or READY slot that carried nothing to judge (R186). -/
theorem exec_csRises_ignored (nothing : (clocked kind image levels).outcome = none) :
    exec (.csRises p levels) s = .next (closedWith s p image levels.length (s.hp.get p).slot) := by
  rw [exec_csRises levels opened, HostPort.rise, clocked_kind, nothing]
  cases kind with
  | pending => exact absurd rfl requests
  | idle => rfl
  | ready => rfl

/-- A transaction of an IDLE or READY slot that HP answers itself (R187). -/
theorem exec_csRises_error {r : Response} (error : (clocked kind image levels).outcome = some (.error r)) :
    exec (.csRises p levels) s = .next (closedWith s p image levels.length (.ready r)) := by
  rw [exec_csRises levels opened, HostPort.rise, clocked_kind, error]
  cases kind with
  | pending => exact absurd rfl requests
  | idle => rfl
  | ready => rfl

/-- A transaction of an IDLE or READY slot that carried a good frame (R188). -/
theorem exec_csRises_good {tag : Byte} {b : ReqBody} (good : (clocked kind image levels).outcome = some (.ok (tag, b))) :
    exec (.csRises p levels) s = .next { s with
      hp := s.hp.set p { s.hp.get p with
        transaction := none, sdo := .highZ, sdoShown := shiftedOut image levels.length
        slot := .pending, toSu := (s.hp.get p).toSu ++ [⟨p, tag, b⟩] } } := by
  rw [exec_csRises levels opened, HostPort.rise, clocked_kind, good]
  cases kind with
  | pending => exact absurd rfl requests
  | idle => rfl
  | ready => rfl

end

/-! ## The judgement of a frame -/

theorem sumOf_eq (l : List Byte) : sumOf l = (sum8 l).toNat := (sum8_toNat l).symm

theorem sumOf_eq_zero {l : List Byte} : sumOf l = 0 ↔ sum8 l = 0 := by
  rw [sumOf_eq]
  exact ⟨fun h => BitVec.eq_of_toNat_eq h, fun h => by rw [h]; rfl⟩

/-- The code table is that of `argBytes` (section 11.3). -/
theorem argBytes_of_mem {code : Byte} {n : Nat} (entry : (code.toNat, n) ∈ codeTable) : argBytes code = some n := by
  have table : ∀ e ∈ codeTable, argBytes (BitVec.ofNat 8 e.1) = some e.2 := by decide
  simpa using table _ entry

theorem argBytes_of_not_mem {code : Byte} (unknown : ∀ n, (code.toNat, n) ∉ codeTable) : argBytes code = none := by
  have table : ∀ c : Byte, argBytes c = none ∨ ∃ e ∈ codeTable, e.1 = c.toNat := by decide
  rcases table code with none | ⟨⟨c, n⟩, entry, rfl⟩
  · exact none
  · exact absurd entry (unknown n)

theorem codeTable_bound {c n : Nat} (entry : (c, n) ∈ codeTable) : n ≤ 13 := by
  have table : ∀ e ∈ codeTable, e.2 ≤ 13 := by decide
  exact table _ entry

namespace Transaction

/-- The tag echo looks at the first two bytes only (R187). -/
theorem errorTag_eq {t : Transaction} {bytes : List Byte} (received : t.received = bytes.take 16) :
    t.errorTag = echoOf bytes := by
  rw [errorTag, received]
  rcases bytes with _ | ⟨a, _ | ⟨b, rest⟩⟩ <;> rfl

section
variable {t : Transaction}

theorem outcome_no_byte (short : t.bitCount < 8) : t.outcome = none := by
  rw [outcome, if_pos]
  exact Nat.div_eq_of_lt short

theorem outcome_partial (some_byte : 8 ≤ t.bitCount) (part : t.bitCount % 8 ≠ 0) :
    t.outcome = some (.error ⟨.frameError, t.errorTag, []⟩) := by
  have whole : t.wholeBytes ≠ 0 := by unfold wholeBytes; omega
  rw [outcome, if_neg whole, if_pos part]

variable {code : Byte} {rest : List Byte} {m : Nat} (count : t.bitCount = 8 * (m + 1))
  (received : t.received = code :: rest)
include count received

/-- A frame of whole bytes is judged by its code, its length and its sum, in this order (R186). -/
theorem outcome_unknown (unknown : argBytes code = none) :
    t.outcome = some (.error ⟨.unknownRequest, t.errorTag, []⟩) := by
  have whole : t.wholeBytes ≠ 0 := by unfold wholeBytes; omega
  have aligned : ¬ t.bitCount % 8 ≠ 0 := by omega
  rw [outcome, if_neg whole, if_neg aligned]
  simp only [received, unknown]

theorem outcome_short {n : Nat} (known : argBytes code = some n) (short : m + 1 < n + 3) :
    t.outcome = some (.error ⟨.frameError, t.errorTag, []⟩) := by
  have whole : t.wholeBytes = m + 1 := by unfold wholeBytes; omega
  have aligned : ¬ t.bitCount % 8 ≠ 0 := by omega
  rw [outcome, if_neg (by rw [whole]; exact Nat.succ_ne_zero m), if_neg aligned]
  simp only [received, known, whole, if_pos short]

theorem outcome_bad_check {n : Nat} (known : argBytes code = some n) (long : n + 3 ≤ m + 1)
    (bad : sum8 (t.received.take (n + 3)) ≠ 0) : t.outcome = some (.error ⟨.frameError, t.errorTag, []⟩) := by
  have whole : t.wholeBytes = m + 1 := by unfold wholeBytes; omega
  have aligned : ¬ t.bitCount % 8 ≠ 0 := by omega
  rw [received] at bad
  rw [outcome, if_neg (by rw [whole]; exact Nat.succ_ne_zero m), if_neg aligned]
  simp only [received, known, whole, if_neg (Nat.not_lt.mpr long), if_pos bad]

theorem outcome_good {n : Nat} {tag : Byte} {args : List Byte} {b : ReqBody} (known : argBytes code = some n)
    (long : n + 3 ≤ m + 1) (check : sum8 (t.received.take (n + 3)) = 0) (tagged : rest = tag :: args)
    (read : ReqBody.ofBytes code (args.take n) = some b) : t.outcome = some (.ok (tag, b)) := by
  have whole : t.wholeBytes = m + 1 := by unfold wholeBytes; omega
  have aligned : ¬ t.bitCount % 8 ≠ 0 := by omega
  have passed : ¬ sum8 (t.received.take (n + 3)) ≠ 0 := not_not.mpr check
  rw [received] at passed
  subst tagged
  rw [outcome, if_neg (by rw [whole]; exact Nat.succ_ne_zero m), if_neg aligned]
  simp only [received, known, whole, if_neg (Nat.not_lt.mpr long), if_neg passed, read, Option.map_some]

end

end Transaction

theorem byteLevels_length (bytes : List Byte) : (byteLevels bytes).length = 8 * bytes.length := by
  induction bytes with
  | nil => rfl
  | cons b bytes ih =>
    rw [byteLevels] at ih
    rw [byteLevels, List.flatMap_cons, List.length_append, ih, List.length_cons, List.length_map, List.length_range]
    omega

/-- With no transaction open the edges and the rising edge are ignored (R181). -/
theorem exec_csRises_unopened {s : State} {p : Port} (levels : List Bool) (running : s.phase = .running)
    (none : (s.hp.get p).transaction = none) : exec (.csRises p levels) s = .next s := by
  change execCsRises p levels s = _
  simp only [execCsRises, State.running_of_running running, HostPort.clock_ignored levels _ none, none]

/-- Settles O51: the kind first, then the checks of R186 in their order on the bytes kept. -/
theorem faultyTransactionsAreJudgedInOrder : Obligations.FaultyTransactionsAreJudgedInOrder := by
  refine ⟨fun s p levels running none => exec_csRises_unopened levels running none, ?_⟩
  intro s p kind image bytes more opened part result closed error
  obtain ⟨count, received⟩ := clocked_bytes kind image bytes part
  have length : (byteLevels bytes ++ more).length = 8 * bytes.length + more.length := by
    rw [List.length_append, byteLevels_length]
  have echo := Transaction.errorTag_eq received
  have ignored : kind ≠ .pending → (clocked kind image (byteLevels bytes ++ more)).outcome = none →
      result = closed (s.hp.get p).slot := fun requests nothing =>
    (exec_csRises_ignored _ opened requests nothing).trans (by rw [length])
  have judged : ∀ st, kind ≠ .pending → (clocked kind image (byteLevels bytes ++ more)).outcome =
      some (.error ⟨st, (clocked kind image (byteLevels bytes ++ more)).errorTag, []⟩) → result = error st :=
    fun st requests outcome => (exec_csRises_error _ opened requests outcome).trans (by rw [length, echo])
  refine ⟨fun pending => (exec_csRises_pending _ opened pending).trans (by rw [length]), fun requests =>
    ⟨fun empty => ignored requests (Transaction.outcome_no_byte ?_), fun filled remainder => judged _ requests
      (Transaction.outcome_partial ?_ ?_), fun code rest split whole => ?_⟩⟩
  · rw [count, empty]; simpa using part
  · have some_byte := List.length_pos_iff.mpr filled
    omega
  · have some_bit := List.length_pos_iff.mpr remainder
    omega
  · subst whole split
    have first : (clocked kind image (byteLevels (code :: rest) ++ [])).received = code :: rest.take 15 := received
    refine ⟨fun unknown => judged _ requests (Transaction.outcome_unknown count first (argBytes_of_not_mem unknown)),
      fun n entry => ⟨fun short => ?_, fun long bad => ?_⟩⟩
    · exact judged _ requests (Transaction.outcome_short count first (argBytes_of_mem entry) short)
    · have bound := codeTable_bound entry
      refine judged _ requests (Transaction.outcome_bad_check count first (argBytes_of_mem entry) long ?_)
      rw [received, List.take_take, min_eq_left (by omega)]
      exact fun zero => bad (sumOf_eq_zero.mpr zero)

/-! ## A framed request read back -/

theorem codeAndArgs_eq (b : ReqBody) : codeAndArgs b = (b.code, b.args) := by
  cases b <;> simp only [codeAndArgs, big_two, ReqBody.code, ReqBody.args]

/-- Settles O50: the frame's bytes are among those kept, its sum is 00h, and its arguments are read back. -/
theorem framedRequestReachesSessionUnit : Obligations.FramedRequestReachesSessionUnit := by
  intro s p kind image tag check b filler opened requests frame sum
  have framed : frame = b.code :: tag :: (b.args ++ [check]) := by
    simp only [frame, codeAndArgs_eq, List.cons_append, List.nil_append]
  have size : frame.length = b.args.length + 3 := by
    rw [framed]; simp
  have bound := b.args_length
  obtain ⟨count, received⟩ := clocked_bytes kind image (frame ++ filler) (more := []) (by decide)
  rw [List.append_nil] at count received
  have length : (byteLevels (frame ++ filler)).length = 8 * (frame ++ filler).length := byteLevels_length _
  have total : (frame ++ filler).length = (b.args.length + 2 + filler.length) + 1 := by
    rw [List.length_append, size]; omega
  rw [total] at count
  have first : (clocked kind image (byteLevels (frame ++ filler))).received =
      b.code :: tag :: (b.args ++ ([check] ++ filler)).take 14 := by
    rw [received, framed]; simp
  have kept : sum8 ((clocked kind image (byteLevels (frame ++ filler))).received.take (b.args.length + 3)) = 0 := by
    rw [received, List.take_take, min_eq_left (by omega), ← size, List.take_left]
    exact sumOf_eq_zero.mp sum
  have arguments : ((b.args ++ ([check] ++ filler)).take 14).take b.args.length = b.args := by
    rw [List.take_take, min_eq_left (by omega), List.take_left]
  have good := Transaction.outcome_good count first (argBytes_code b) (by omega) kept rfl
    (by rw [arguments]; exact b.ofBytes_args)
  rw [exec_csRises_good _ opened requests good, length]

/-! ## The falling edge -/

/-- The response, or the marker, that a transaction of the present slot shows (R183, R192). -/
def HostPort.answer (h : HostPort) : Response :=
  match h.slot with
  | .idle => Response.marker .empty
  | .pending => Response.marker .busy
  | .ready r => r

theorem HostPort.outgoing_eq (h : HostPort) : h.outgoing = h.answer.image h.epoch h.queueLength := by
  unfold outgoing answer
  cases h.slot <;> rfl

section
variable {h : HostPort}

theorem HostPort.shows_empty (slot : h.slot = .idle) : h.kindNow = .idle ∧ h.answer = Response.marker .empty := by
  simp only [kindNow, answer, slot, and_self]

theorem HostPort.shows_busy (slot : h.slot = .pending) : h.kindNow = .pending ∧ h.answer = Response.marker .busy := by
  simp only [kindNow, answer, slot, and_self]

theorem HostPort.shows_held {r : Response} (slot : h.slot = .ready r) : h.kindNow = .ready ∧ h.answer = r := by
  simp only [kindNow, answer, slot, and_self]

end

theorem exec_csFalls {s : State} {p : Port} (running : s.phase = .running) :
    exec (.csFalls p) s = .next (s.setHp p (s.hp.get p).fall) := by
  change execCsFalls p s = _
  simp only [execCsFalls, State.running_of_running running]

theorem statusCode_eq (st : Status) : statusCode st = st.byte := by cases st <;> rfl

/-- Settles O52: the image is that of `HostPort.answer`, its sum is 00h, and the transaction it opens shows it. -/
theorem fallingEdgeBuildsTheImage : Obligations.FallingEdgeBuildsTheImage := by
  intro s p running h
  let r := h.answer
  let head : List Byte := [r.status.byte, r.tag, h.epoch, byteOf h.queueLength, byteOf r.payload.length] ++ r.payload
  refine ⟨h.kindNow, r.status.byte, r.tag, 0 - sum8 head, r.payload, ?_⟩
  intro image opened
  have shown : h.outgoing = image := h.outgoing_eq
  have bit : sdoBit image 0 = r.status.byte.getLsbD 7 := rfl
  refine ⟨?_, sumOf_eq_zero.mpr (sum8_withCheck head), fun slot => ?_, fun slot => ?_, fun held slot => ?_,
    fun levels => ?_⟩
  · rw [exec_csFalls running, HostPort.fall, shown, bit]; rfl
  · obtain ⟨kind, (response : r = _)⟩ := HostPort.shows_empty slot
    rw [response]
    exact ⟨kind, rfl, rfl, rfl⟩
  · obtain ⟨kind, (response : r = _)⟩ := HostPort.shows_busy slot
    rw [response]
    exact ⟨kind, rfl, rfl, rfl⟩
  · obtain ⟨kind, (response : r = _)⟩ := HostPort.shows_held slot
    rw [response]
    exact ⟨kind, (statusCode_eq _).symm, rfl, rfl⟩
  · have start : TransactionOpen opened p h.kindNow image := by
      have port : opened.hp.get p = _ := PerPort.get_set_self ..
      exact ⟨running, by rw [port], ⟨_, by rw [port], (shiftedOut_eq image 1).trans (congrArg (fun b => [b]) bit)⟩,
        by rw [port]⟩
    refine ⟨_, exec_csRises levels start, ?_, ?_⟩
    · rw [State.setHp_hp, PerPort.get_set_self]
      exact (HostPort.rise_keeps ..).2.2.1
    · rw [State.setHp_hp, PerPort.get_set_self]
      exact (HostPort.rise_keeps ..).2.1

/-! ## Responses, epochs and queue lengths -/

/-- Settles O53: each command takes its block's message off the path and holds what it carries. -/
theorem responsesAndHeaderValuesAreHeld : Obligations.ResponsesAndHeaderValuesAreHeld := by
  intro s p running h held
  have write : ∀ block, exec (.responseWrite block p) s = execResponseWrite block p s := fun _ => rfl
  have epoch : exec (.epochMessage p) s = execEpochMessage p s := rfl
  have queue : exec (.queueLengthMessage p) s = execQueueLengthMessage p s := rfl
  refine ⟨fun r rest path => ?_, fun r rest path => ?_, fun r rest path => ?_, fun r rest path => ?_,
    fun r rest path => ?_, fun r rest path => ?_, fun r rest path => ?_, fun e rest path => ?_, fun n rest path => ?_⟩
  case refine_8 =>
    rw [epoch, execEpochMessage, State.running_of_running running]
    simp only [path]
    rfl
  case refine_9 =>
    rw [queue, execQueueLengthMessage, State.running_of_running running]
    simp only [path]
    rfl
  all_goals
    rw [write, execResponseWrite, State.running_of_running running]
    simp only [path]
    rfl

end Sys2Proof.Machine
end
